-- ==== Sys2Proof/Word.lean ====
section
/-!
DEFINITION. Words, the names of the register blocks (Table 02-7), the page of a unit (Tables 02-4 and 02-5), and the records
that commands carry from outside the package.
-/

namespace Sys2Proof

/-- A byte of memory. -/
abbrev Byte := BitVec 8
/-- A 32-bit register word. -/
abbrev W32 := BitVec 32
/-- A 64-bit value. -/
abbrev W64 := BitVec 64
/-- A byte string, lowest address first. -/
abbrev Bytes := List Byte

/-- The three part numbers (R1). -/
inductive Variant where
  | vxj4t
  | vxj4s
  | vxj2s
  deriving DecidableEq, Repr

/-- The blocks that have register pages (Table 02-7). -/
inductive Block where
  | dev | pres | mc | bent | arr | shim | ledg | att | grad | fab | plan | que | sync | req | kvp | wgt | mem | scrb
  | port | opt | pwr | thm | cal | sec | log | snap
  deriving DecidableEq, Repr

/-- A register page: its block, the frame die of its window, the unit (the bent index of a bent page, else the engine,
gradient unit, local port or local optical engine) and the array number of an ARR or SHIM page. -/
structure Page where
  blk : Block
  die : Nat
  unit : Nat
  sub : Nat
  deriving DecidableEq, Repr

/-- A data flit on a link (R293): its 128 bytes as a number, the poison bit, the late bit and its two bits of a scribe (R428).
`flags` and `count` are the flags and the pass count that travel with a ledger row (Table 06-2), or the index of a partial result
of a reduction and, times 2¹⁶, its elements (R192, R193); where a flit carries them is not stated (log entry 68); `refused` lists the bents whose conflicting read of a bench this flit answers poisoned (R305). -/
structure Flit where
  data : Nat
  poison : Bool
  late : Bool
  side : Nat
  flags : Nat
  count : Nat
  refused : List Nat
  deriving DecidableEq, Repr

/-- Data that reaches a unit over the fabric in planned slots, as its router's flits brought it: 32-bit words in element order, of
operand A and of operand B, the scribe flags of Table 14-7 that the flits carry (bit 4: a late flit, R301), and the pass count of
a ledger row. -/
structure FabIn where
  a : List W32
  b : List W32
  flags : Nat
  count : Nat
  deriving DecidableEq, Repr

/-- What a read of an on-die SRAM word finds (R411, Table 14-13): no error; one bit corrected; one bit corrected in a word that has been
corrected since its last write (`again`); two bits wrong in a word that reads back clean once it is rewritten, or that does not
(`wrong`). -/
inductive SramRead where
  | clean
  | corrected
  | again
  | double
  | wrong
  deriving DecidableEq, Repr

/-- When a wait is evaluated, and what the read of the SRAM words of its synchronisation objects finds (R353, R435). -/
structure SeenAt where
  t : Nat
  sram : SramRead
  deriving DecidableEq, Repr

/-- How the host reads a register window: the access size, and, through a bent's window onto T0, the T0 address shown there and what
the read of the SRAM word finds (R34, R411). -/
structure HostLoad where
  size : Nat
  t0 : Nat
  sram : SramRead
  deriving DecidableEq, Repr

/-- A port of an I/O ring, and the fabric slot of the first flit of a transfer on it. -/
structure RingAt where
  port : Nat
  slot : Nat
  deriving DecidableEq, Repr

/-- A queued unit that the snapshot marker reaches: its page, and of which counters, by how many items, its inputs run behind the
marker (R316). -/
structure MarkerAt where
  page : Page
  late : List (Nat × Nat)
  deriving DecidableEq, Repr

/-- What the elements of a plane image are (R70, R78, R81): INT4, also the high slice of a wide weight; E2M1; the low slice of a wide
weight; MXFP4; and the high and the low slice of an MXINT8 weight. -/
inductive PlaneFmt where
  | int4
  | e2m1
  | low
  | mxfp4
  | mxint8hi
  | mxint8lo
  deriving DecidableEq, Repr

/-- The array whose load ends, and what the elements of its image are. -/
structure LoadEnd where
  arr : Nat
  fmt : PlaneFmt
  deriving DecidableEq, Repr

/-- The key tile of an array prefill that a feed word loads (R212): layer, KV head, tile index, and its V plane or its K plane. -/
structure KvTile where
  layer : Nat
  head : Nat
  tile : Nat
  value : Bool
  deriving DecidableEq, Repr

/-- Whose scores drive a pass of a V array (R215): the K array, the query row's place in its SRAM, the row's position in the
chunk, the layer and the tile. -/
structure ScoreIn where
  arr : Nat
  row : Nat
  pos : Nat
  layer : Nat
  tile : Nat
  deriving DecidableEq, Repr

/-- Whose rescale factor an accumulator update takes (R215): the K array, the query row, the layer, and after the last tile the
row's place in the statistics buffer. -/
structure SoftIn where
  arr : Nat
  row : Nat
  layer : Nat
  last : Option Nat
  deriving DecidableEq, Repr

/-- What the tail segment of a plan hands the serving engine for one rostered request (R370), what the engine's read of the
request's cut-list entry finds, and whether the state of an uncorrectable entry can be read (Table 14-11). -/
structure ReqOut where
  tokens : List Nat
  k : Nat
  flags : Nat
  entry : SramRead
  stateRead : Bool
  deriving DecidableEq, Repr

/-- Outcome of the hardware work of one bring-up step (Table 17-1): whether the parts came up, which stacks failed, which
ports are lit with the power of their lasers, the arrays, by device-wide key, on which P1 could not trim an ADC within its range
(R275), the links and the routers that link training finds dead, as (die, bit of the knot map) (R311), the public-key
reconstruction, and the device times at which P6 and the step ended. -/
structure BootEnv where
  ok : Bool
  badStacks : List Nat
  lit : Nat
  laser : List Int
  untrimmed : List Nat
  deadLinks : List (Nat × Nat)
  deadRouters : List (Nat × Nat)
  seed : Bytes
  calTime : Nat
  lateTime : Nat
  deriving DecidableEq, Repr

/-- An Ahnaz packet (Tables 15-5 and 15-6) with the source address of its frame: its type, virtual channel, the VC of its
grant, the last flag, both channels with their epochs, sequence and acknowledgement numbers, grant, window offset, operation,
payload, the scribes of its trailer, and whether its CRC holds. `len` is the payload length; of a READ_REQ, which carries no
payload, the number of bytes asked for. `key` and `offer` are what an OPEN or OPEN_ACK tells of the sender's channel: its pairing
key and the cells it offers on each VC. The spec does not place these two in the packet, nor the length that a READ_REQ asks
for. DESIGN CHOICE: log entry 30. -/
structure Pkt where
  mac : Nat
  kind : Nat
  vc : Nat
  grantVc : Nat
  last : Bool
  dst : Nat
  dstEpoch : Nat
  src : Nat
  srcEpoch : Nat
  seq : Nat
  ack : Nat
  grant : Nat
  addr : Nat
  len : Nat
  op : Nat
  data : Bytes
  scribes : List W64
  crcOk : Bool
  key : Nat
  offer : List Nat
  deriving DecidableEq, Repr

end Sys2Proof
end

