-- ==== Sys2Proof/Syntax.lean ====
section
/-!
DEFINITION. The commands of the package: one constructor per row of the table of operations and events, with the row's
operands. A descriptor row names a descriptor in flight by its queue `q` and free-running ring index `ix`; a unit's row names
the unit and the plan slot of its stream word; `t` is a device time; the other operands are what the outside world brings.
-/

namespace Sys2Proof

/-- A command. -/
inductive Instr where
  /-- NOP (R344). -/
  | nop (q : Nat) (ix : Nat)
  /-- SYNC_ADD (R352). -/
  | syncAdd (q : Nat) (ix : Nat)
  /-- SYNC_SET (R352). -/
  | syncSet (q : Nat) (ix : Nat)
  /-- SYNC_WAIT (R354). -/
  | syncWait (q : Nat) (seen : SeenAt)
  /-- SYNC_CREATE (R519). -/
  | syncCreate (q : Nat) (ix : Nat)
  /-- SYNC_DESTROY (R355). -/
  | syncDestroy (q : Nat) (ix : Nat)
  /-- QUEUE_CREATE (R518). -/
  | queueCreate (q : Nat) (ix : Nat)
  /-- QUEUE_DESTROY (R348). -/
  | queueDestroy (q : Nat) (ix : Nat)
  /-- CONTEXT_CREATE (R388). -/
  | contextCreate (q : Nat) (ix : Nat)
  /-- CONTEXT_DESTROY (R339). -/
  | contextDestroy (q : Nat) (ix : Nat)
  /-- BENT_ASSIGN (R344). -/
  | bentAssign (q : Nat) (ix : Nat)
  /-- BENT_CLEAR (R263). -/
  | bentClear (q : Nat) (ix : Nat)
  /-- PLAN_LOAD (R332). -/
  | planLoad (q : Nat) (ix : Nat)
  /-- PLAN_UNLOAD (R339). -/
  | planUnload (q : Nat) (ix : Nat)
  /-- PLAN_RUN (R334). -/
  | planRun (q : Nat) (ix : Nat)
  /-- PLAN_STOP (R339). -/
  | planStop (q : Nat) (ix : Nat)
  /-- WEIGHT_LOAD (R521). -/
  | weightLoad (q : Nat) (ix : Nat)
  /-- COPY (R520). -/
  | copy (q : Nat) (ix : Nat)
  /-- REQ_ADMIT (R364). -/
  | reqAdmit (q : Nat) (ix : Nat)
  /-- REQ_CANCEL (R376). -/
  | reqCancel (q : Nat) (ix : Nat)
  /-- REQ_PAUSE (R375). -/
  | reqPause (q : Nat) (ix : Nat)
  /-- REQ_RESUME (R378). -/
  | reqResume (q : Nat) (ix : Nat)
  /-- REQ_SET (R362). -/
  | reqSet (q : Nat) (ix : Nat)
  /-- REQ_DRAFT (R366). -/
  | reqDraft (q : Nat) (ix : Nat)
  /-- REQ_RELEASE (R384). -/
  | reqRelease (q : Nat) (ix : Nat)
  /-- REQ_QUERY (R384). -/
  | reqQuery (q : Nat) (ix : Nat)
  /-- WGT_KEY_EXPORT (R389). -/
  | wgtKeyExport (q : Nat) (ix : Nat)
  /-- WGT_REGISTER (R397). -/
  | wgtRegister (q : Nat) (ix : Nat)
  /-- WGT_SEAL (R259). -/
  | wgtSeal (q : Nat) (ix : Nat)
  /-- WGT_VERIFY (R403). -/
  | wgtVerify (q : Nat) (ix : Nat)
  /-- TP_CHANNEL_CREATE (R453). -/
  | tpChannelCreate (q : Nat) (ix : Nat)
  /-- TP_CHANNEL_DESTROY (R467). -/
  | tpChannelDestroy (q : Nat) (ix : Nat)
  /-- TP_WRITE (R463). -/
  | tpWrite (q : Nat) (ix : Nat)
  /-- TP_READ (R463). -/
  | tpRead (q : Nat) (ix : Nat)
  /-- QUE_DOORBELL (R343). -/
  | queDoorbell (value : BitVec 64)
  /-- DESCRIPTOR_CONSUME (R346). -/
  | descriptorConsume (q : Nat) (t : Nat) (sram : SramRead)
  /-- DESCRIPTOR_COMPLETE (R346). -/
  | descriptorComplete (q : Nat) (ix : Nat) (t : Nat)
  /-- SYNC_WAIT_DEADLINE (R354). -/
  | syncWaitDeadline (q : Nat) (t : Nat)
  /-- ERR_LOG_CLEAR (R52). -/
  | errLogClear (p : Page)
  /-- PAGE_IRQ_STAT_WRITE (R63). -/
  | pageIrqStatWrite (p : Page) (value : BitVec 32)
  /-- MSIX_UNMASK (R63). -/
  | msixUnmask (die : Nat) (entry : Nat)
  /-- RC_COUNTER_READ (R12). -/
  | rcCounterRead (addr : Nat) (x : HostLoad)
  /-- REQ_ENTRY_READ (R359). -/
  | reqEntryRead
  /-- REGISTER_WRITE (R12). -/
  | registerWrite (addr : Nat) (size : Nat) (value : BitVec 64)
  /-- LEDGER_HOST_WRITE (R189). -/
  | ledgerHostWrite (die : Nat) (bent : Nat) (addr : Nat) (value : BitVec 32)
  /-- ARR_RETIRE (R136). -/
  | arrRetire (die : Nat) (bent : Nat) (arr : Nat)
  /-- RECAL (R283). -/
  | recal (die : Nat) (bent : Nat)
  /-- KVP_CENSUS (R234). -/
  | kvpCensus (die : Nat)
  /-- REQ_CENSUS (R386). -/
  | reqCensus
  /-- PORT_CENSUS (R461). -/
  | portCensus (port : Nat)
  /-- PORT_RETRAIN (R452). -/
  | portRetrain (port : Nat)
  /-- PORT_CLEAR_RETIRED (R451). -/
  | portClearRetired (port : Nat)
  /-- KNOT_REISSUE (R311). -/
  | knotReissue
  /-- KNOT_CANCEL_REISSUE (R311). -/
  | knotCancelReissue
  /-- SHARE_WRITE (R308). -/
  | shareWrite (die : Nat) (off : Nat) (value : BitVec 64)
  /-- PLAN_ESC_ADD (R169). -/
  | planEscAdd (die : Nat)
  /-- PLAN_ESC_REMOVE (R170). -/
  | planEscRemove (die : Nat)
  /-- ADMIN_QUEUE_ENABLE (R342). -/
  | adminQueueEnable (msix : Nat)
  /-- ADMIN_QUEUE_DISABLE (R341). -/
  | adminQueueDisable
  /-- SYNC_HOST_READ (R358). -/
  | syncHostRead
  /-- SYNC_HOST_ADD (R358). -/
  | syncHostAdd
  /-- SYNC_HOST_SET (R358). -/
  | syncHostSet
  /-- PWR_WAKE (R478). -/
  | pwrWake (die : Nat)
  /-- PWR_WAKE_LAT_WRITE (R486). -/
  | pwrWakeLatWrite (die : Nat) (value : BitVec 32)
  /-- THM_TRIP_ACK (R485). -/
  | thmTripAck (die : Nat) (value : BitVec 32)
  /-- MEM_INJECT (R440). -/
  | memInject (die : Nat) (kind : Nat)
  /-- SEC_UPDATE (R496). -/
  | secUpdate (type : Nat)
  /-- SEC_ATTEST (R497). -/
  | secAttest
  /-- SNAP_REQUEST (R506). -/
  | snapRequest (clear : Bool)
  /-- CONS_AUDIT (R510). -/
  | consAudit
  /-- CONS_RESUME (R512). -/
  | consResume
  /-- HOST_MEM_READ (R49). -/
  | hostMemRead (addr : Nat) (size : Nat)
  /-- HOST_MEM_WRITE (R426). -/
  | hostMemWrite (addr : Nat) (data : Bytes)
  /-- IDENTIFY_MEMORY_DEVICE (R39). -/
  | identifyMemoryDevice (die : Nat)
  /-- GET_PARTITION_INFO (R39). -/
  | getPartitionInfo (die : Nat)
  /-- GET_HEALTH_INFO (R39). -/
  | getHealthInfo (die : Nat)
  /-- GET_POISON_LIST (R431). -/
  | getPoisonList (die : Nat)
  /-- MAILBOX_UNSUPPORTED (R39). -/
  | mailboxUnsupported (die : Nat) (op : Nat)
  /-- PEEK (R504). -/
  | monPeek (addr : Nat) (width : Nat)
  /-- POKE (R504). -/
  | monPoke (addr : Nat) (width : Nat) (value : BitVec 64)
  /-- DUMP (R504). -/
  | monDump (addr : Nat)
  /-- SNAP (R507). -/
  | monSnap (clear : Bool)
  /-- TEMP (R504). -/
  | monTemp (die : Option Nat)
  /-- LOG (R504). -/
  | monLog (count : Nat)
  /-- KNOTS (R504). -/
  | monKnots
  /-- CAL (R504). -/
  | monCal (die : Nat) (bent : Nat)
  /-- LINK (R504). -/
  | monLink (port : Option Nat)
  /-- CENSUS (R504). -/
  | monCensus
  /-- AUDIT (R510). -/
  | monAudit
  /-- RESUME (R512). -/
  | monResume
  /-- BAUD (R468). -/
  | monBaud (rate : Nat)
  /-- ID (R504). -/
  | monId
  /-- RESTART (R498). -/
  | monRestart (confirm : Bool)
  /-- MONITOR_BREAK (R468). -/
  | monitorBreak
  /-- ROM_RECOVERY_IMAGE (R493). -/
  | romRecoveryImage (image : Bytes)
  /-- POWER_ON (R489). -/
  | powerOn (voltage : Nat)
  /-- BOOT_STEP_END (R489). -/
  | bootStepEnd (env : BootEnv)
  /-- INPUT_WARN (R471). -/
  | inputWarn (voltage : Nat) (t : Nat)
  /-- VOLTAGE_SHUTDOWN (R471). -/
  | voltageShutdown (isOver : Bool) (voltage : Nat) (t : Nat)
  /-- STANDBY_LOSS (R471). -/
  | standbyLoss
  /-- POWER_SAMPLE (R474). -/
  | powerSample (watts : Nat) (dies : List Nat) (t : Nat)
  /-- POWER_DEMAND_STEP (R474). -/
  | powerDemandStep (average : Nat) (t : Nat)
  /-- SENSOR_READ (R480). -/
  | sensorRead (readings : List (List Int)) (t : Nat)
  /-- SENSOR_CROSS_CHECK (R480). -/
  | sensorCrossCheck (t : Nat)
  /-- THERMAL_DEMAND_STEP (R481). -/
  | thermalDemandStep (t : Nat)
  /-- SHUTDOWN_STAGE (R482). -/
  | shutdownStage (t : Nat)
  /-- COOLANT_WARN (R476). -/
  | coolantWarn (inlet : Int) (outlet : Int) (t : Nat)
  /-- WAKE_STATE_ENTRY (R477). -/
  | wakeStateEntry (die : Nat) (t : Nat)
  /-- WAKE_START (R478). -/
  | wakeStart (die : Nat) (t : Nat)
  /-- WAKE_COMPLETE (R478). -/
  | wakeComplete (die : Nat) (t : Nat)
  /-- LIGHT_LOSS (R444). -/
  | lightLoss (engine : Nat) (power : Int)
  /-- LIGHT_RETURN (R444). -/
  | lightReturn (engine : Nat) (power : Int)
  /-- PORT_TRAINING_COMPLETE (R452). -/
  | portTrainingComplete (port : Nat)
  /-- LANE_LOCK_LOSS (R449). -/
  | laneLockLoss (port : Nat) (lane : Nat)
  /-- LANE_ERROR_WINDOW (R449). -/
  | laneErrorWindow (port : Nat) (ratios : List Nat) (crcFails : Nat)
  /-- HOST_LINK_MODULE_LOSS (R41). -/
  | hostLinkModuleLoss (die : Nat) (module : Nat)
  /-- BRIDGE_MODULE_LOSS (R299). -/
  | bridgeModuleLoss (die : Nat) (module : Nat)
  /-- ROUTER_SLOT_ENTRY (R303). -/
  | routerSlotEntry (die : Nat) (bent : Nat) (crcBad : List Nat) (reads : List (Nat × Nat))
  /-- FABRIC_STALL (R297). -/
  | fabricStall (die : Nat) (bent : Nat) (port : Nat) (t : Nat)
  /-- FABRIC_RESUME (R297). -/
  | fabricResume (t : Nat)
  /-- SEGMENT_QUANTISE (R142). -/
  | segmentQuantise (die : Nat) (bent : Nat) (arr : Nat) (slot : Nat) (take : Nat) (half : Bool) (score : Option ScoreIn)
  /-- FORWARD_PASS (R111). -/
  | forwardPass (die : Nat) (bent : Nat) (arr : Nat) (slot : Nat) (score : Option Nat)
  /-- TRANSPOSED_PASS (R125). -/
  | transposedPass (die : Nat) (bent : Nat) (arr : Nat) (slot : Nat)
  /-- RESERVE_BEAT (R159). -/
  | reserveBeat (die : Nat) (bent : Nat) (arr : Nat) (slot : Nat)
  /-- CHECK_VERDICT (R130). -/
  | checkVerdict (die : Nat) (bent : Nat) (arr : Nat)
  /-- PASS_EVENT_SETTLE (R160). -/
  | passEventSettle (die : Nat) (bent : Nat) (arr : Nat) (t : Nat)
  /-- ESCALATION_WINDOW_END (R168). -/
  | escalationWindowEnd (die : Nat) (bent : Nat) (arr : Nat)
  /-- PARTIAL_WRITE (R163). -/
  | partialWrite (die : Nat) (bent : Nat) (arr : Nat)
  /-- OPEN_ZERO (R176). -/
  | openZero (die : Nat) (bent : Nat) (slot : Nat)
  /-- OPEN_LOAD (R176). -/
  | openLoad (die : Nat) (bent : Nat) (slot : Nat) (sram : SramRead) (scr : SramRead) (row : SramRead)
  /-- ADD_IN (R176). -/
  | addIn (die : Nat) (bent : Nat) (slot : Nat) (sram : SramRead) (row : SramRead)
  /-- LEDGER_READ (R176). -/
  | ledgerRead (die : Nat) (bent : Nat) (slot : Nat) (sram : SramRead)
  /-- LEDGER_STORE (R183). -/
  | ledgerStore (die : Nat) (bent : Nat) (slot : Nat)
  /-- LEDGER_CLOSE (R183). -/
  | ledgerClose (die : Nat) (bent : Nat) (slot : Nat)
  /-- VEC_NOP (R196). -/
  | vecNop (die : Nat) (bent : Nat) (slot : Nat) (sram : SramRead)
  /-- VEC_ADD (R198). -/
  | vecAdd (die : Nat) (bent : Nat) (slot : Nat) (sram : SramRead)
  /-- VEC_SUB (R198). -/
  | vecSub (die : Nat) (bent : Nat) (slot : Nat) (sram : SramRead)
  /-- VEC_MUL (R198). -/
  | vecMul (die : Nat) (bent : Nat) (slot : Nat) (sram : SramRead)
  /-- VEC_FMA (R198). -/
  | vecFma (die : Nat) (bent : Nat) (slot : Nat) (sram : SramRead)
  /-- VEC_SCALE (R198). -/
  | vecScale (die : Nat) (bent : Nat) (slot : Nat) (sram : SramRead)
  /-- VEC_ROWSCALE (R198). -/
  | vecRowscale (die : Nat) (bent : Nat) (slot : Nat) (sram : SramRead)
  /-- VEC_SILU (R198). -/
  | vecSilu (die : Nat) (bent : Nat) (slot : Nat) (sram : SramRead)
  /-- VEC_GELU (R198). -/
  | vecGelu (die : Nat) (bent : Nat) (slot : Nat) (sram : SramRead)
  /-- VEC_SWIGLU (R198). -/
  | vecSwiglu (die : Nat) (bent : Nat) (slot : Nat) (sram : SramRead)
  /-- VEC_EXP (R198). -/
  | vecExp (die : Nat) (bent : Nat) (slot : Nat) (sram : SramRead)
  /-- VEC_RECIP (R198). -/
  | vecRecip (die : Nat) (bent : Nat) (slot : Nat) (sram : SramRead)
  /-- VEC_RSQRT (R198). -/
  | vecRsqrt (die : Nat) (bent : Nat) (slot : Nat) (sram : SramRead)
  /-- VEC_ATT_RESCALE (R215). -/
  | vecAttRescale (die : Nat) (bent : Nat) (slot : Nat) (sram : SramRead) (soft : Option SoftIn)
  /-- VEC_CONVERT (R242). -/
  | vecConvert (die : Nat) (bent : Nat) (slot : Nat) (sram : SramRead)
  /-- VEC_SUM (R190). -/
  | vecSum (die : Nat) (bent : Nat) (slot : Nat) (sram : SramRead)
  /-- VEC_SUMSQ (R190). -/
  | vecSumsq (die : Nat) (bent : Nat) (slot : Nat) (sram : SramRead)
  /-- VEC_MEANVAR (R190). -/
  | vecMeanvar (die : Nat) (bent : Nat) (slot : Nat) (sram : SramRead)
  /-- VEC_MAX (R190). -/
  | vecMax (die : Nat) (bent : Nat) (slot : Nat) (sram : SramRead)
  /-- VEC_MIN (R190). -/
  | vecMin (die : Nat) (bent : Nat) (slot : Nat) (sram : SramRead)
  /-- VEC_ABSMAX (R190). -/
  | vecAbsmax (die : Nat) (bent : Nat) (slot : Nat) (sram : SramRead)
  /-- VEC_DOT (R196). -/
  | vecDot (die : Nat) (bent : Nat) (slot : Nat) (sram : SramRead)
  /-- VEC_MERGE (R192). -/
  | vecMerge (die : Nat) (bent : Nat) (slot : Nat) (sram : SramRead)
  /-- VEC_ADAMW (R254). -/
  | vecAdamw (die : Nat) (bent : Nat) (slot : Nat) (sram : SramRead)
  /-- VEC_REPACK_COL (R257). -/
  | vecRepackCol (die : Nat) (bent : Nat) (slot : Nat) (sram : SramRead)
  /-- VEC_PACK (R196). -/
  | vecPack (die : Nat) (bent : Nat) (slot : Nat) (sram : SramRead)
  /-- VEC_MX_REBLOCK (R79). -/
  | vecMxReblock (die : Nat) (bent : Nat) (slot : Nat) (sram : SramRead)
  /-- WINDOW_OPEN (R208). -/
  | windowOpen (die : Nat) (engine : Nat) (slot : Nat)
  /-- TAKE_QUERY (R208). -/
  | takeQuery (die : Nat) (engine : Nat) (slot : Nat) (sram : SramRead)
  /-- TAKE_FRESH (R208). -/
  | takeFresh (die : Nat) (engine : Nat) (slot : Nat) (sram : SramRead)
  /-- WINDOW_CLOSE (R210). -/
  | windowClose (die : Nat) (engine : Nat) (slot : Nat) (done : List Nat) (t : Nat)
  /-- ATT_SEND (R208). -/
  | attSend (die : Nat) (engine : Nat) (slot : Nat)
  /-- GRAD_ACCUMULATE (R246). -/
  | gradAccumulate (die : Nat) (gunit : Nat) (slot : Nat) (sram : SramRead)
  /-- GRAD_FLUSH_COMPLETE (R247). -/
  | gradFlushComplete (die : Nat) (gunit : Nat)
  /-- GRAD_FOLD_COMPLETE (R247). -/
  | gradFoldComplete (die : Nat) (gunit : Nat) (tile : Nat)
  /-- WEIGHT_FEED_LOAD (R402). -/
  | weightFeedLoad (ctx : Nat) (die : Nat) (slot : Nat) (kv : Option KvTile)
  /-- PLANE_LOAD_COMPLETE (R120). -/
  | planeLoadComplete (die : Nat) (bent : Nat) (x : LoadEnd)
  /-- PLANE_DRAIN_END (R122). -/
  | planeDrainEnd (die : Nat) (bent : Nat) (arr : Nat)
  /-- RING_PORT_READ (R325). -/
  | ringPortRead (ctx : Nat) (die : Nat) (port : Nat) (slot : Nat) (ready : Bool) (upset : Bool)
  /-- RING_PORT_WRITE (R325). -/
  | ringPortWrite (ctx : Nat) (die : Nat) (port : Nat) (slot : Nat) (crcBad : Bool)
  /-- KV_ENTRY_WRITE (R220). -/
  | kvEntryWrite (die : Nat) (req : Nat) (layer : Nat) (pos : Nat) (ring : RingAt)
  /-- GATE_ARRIVAL (R337). -/
  | gateArrival (ctx : Nat) (slot : Nat) (t : Nat)
  /-- GATE_RELEASE (R337). -/
  | gateRelease (ctx : Nat) (outs : List ReqOut) (seen : SeenAt)
  /-- GATE_DEADLINE (R336). -/
  | gateDeadline (ctx : Nat) (t : Nat)
  /-- PLAN_RESUME (R307). -/
  | planResume (ctx : Nat) (fslot : Nat)
  /-- LIVE_WINDOW_CLOSE (R269). -/
  | liveWindowClose (die : Nat) (bent : Nat) (arr : Nat) (line : Nat)
  /-- UPDATE_SET_WRITE (R281). -/
  | updateSetWrite (die : Nat) (bent : Nat) (arr : Nat)
  /-- RATE_WINDOW_END (R271). -/
  | rateWindowEnd (die : Nat) (bent : Nat) (arr : Nat)
  /-- RECALIBRATION_START (R285). -/
  | recalibrationStart (die : Nat) (bent : Nat) (t : Nat)
  /-- RECALIBRATION_COMPLETE (R284). -/
  | recalibrationComplete (die : Nat) (bent : Nat) (t : Nat) (sram : SramRead)
  /-- SPILL_START (R228). -/
  | spillStart (die : Nat) (t : Nat)
  /-- SPILL_COMPLETE (R228). -/
  | spillComplete (die : Nat) (frame : Nat) (ok : Bool) (t : Nat)
  /-- PREFETCH_START (R229). -/
  | prefetchStart (die : Nat) (t : Nat)
  /-- PREFETCH_COMPLETE (R229). -/
  | prefetchComplete (die : Nat) (frame : Nat) (ok : Bool) (data : Bytes) (t : Nat)
  /-- REQUEST_EXPIRY (R379). -/
  | requestExpiry (req : Nat) (t : Nat)
  /-- SHARD_ARRIVAL (R399). -/
  | shardArrival (gen : Nat) (shard : Nat) (data : Bytes) (t : Nat)
  /-- SEAL_COMPLETE (R259). -/
  | sealComplete (ctx : Nat) (t : Nat)
  /-- HASHER_SHARD_CHECK (R403). -/
  | hasherShardCheck (die : Nat) (upset : Bool) (t : Nat)
  /-- HASHER_REHASH (R404). -/
  | hasherRehash (die : Nat) (upset : Bool) (t : Nat)
  /-- PATROL_SCRUB_READ (R421). -/
  | patrolScrubRead (stack : Nat) (readback : Bool)
  /-- REGION_SCRUB (R421). -/
  | regionScrub (stack : Nat) (readback : Bool)
  /-- MAPOUT_COMPLETE (R423). -/
  | mapoutComplete (block : Nat)
  /-- ETHERNET_FRAME_RECEIVE (R447). -/
  | ethernetFrameReceive (port : Nat) (data : Bytes) (fcsOk : Bool)
  /-- AHNAZ_OPEN (R453). -/
  | ahnazOpen (port : Nat) (pkt : Pkt) (t : Nat)
  /-- AHNAZ_OPEN_ACK (R453). -/
  | ahnazOpenAck (port : Nat) (pkt : Pkt) (t : Nat)
  /-- AHNAZ_CLOSE (R467). -/
  | ahnazClose (port : Nat) (pkt : Pkt) (t : Nat)
  /-- AHNAZ_WRITE (R465). -/
  | ahnazWrite (port : Nat) (pkt : Pkt) (t : Nat)
  /-- AHNAZ_READ_REQ (R463). -/
  | ahnazReadReq (port : Nat) (pkt : Pkt) (t : Nat)
  /-- AHNAZ_READ_RESP (R465). -/
  | ahnazReadResp (port : Nat) (pkt : Pkt) (t : Nat)
  /-- AHNAZ_ACK (R457). -/
  | ahnazAck (port : Nat) (pkt : Pkt) (t : Nat)
  /-- AHNAZ_NAK (R458). -/
  | ahnazNak (port : Nat) (pkt : Pkt) (t : Nat)
  /-- PACKET_SEND (R460). -/
  | packetSend (chan : Nat) (t : Nat)
  /-- ACK_TIMER (R457). -/
  | ackTimer (chan : Nat) (t : Nat)
  /-- RETRY_TIMEOUT (R458). -/
  | retryTimeout (chan : Nat) (t : Nat)
  /-- OPEN_TIMEOUT (R453). -/
  | openTimeout (chan : Nat) (t : Nat)
  /-- SNAPSHOT_COPY (R315). -/
  | snapshotCopy (p : Page)
  /-- SNAPSHOT_MARKER (R316). -/
  | snapshotMarker (m : MarkerAt)
  /-- SNAPSHOT_COMPLETE (R507). -/
  | snapshotComplete (t : Nat)
  /-- SNAPSHOT_TIMEOUT (R507). -/
  | snapshotTimeout (t : Nat)
  /-- PERIODIC_AUDIT (R510). -/
  | periodicAudit (t : Nat)
  /-- LOG_RECORD_WRITE (R514). -/
  | logRecordWrite
  /-- UPDATE_END (R496). -/
  | updateEnd (t : Nat)
  /-- REPORT_WRITTEN (R497). -/
  | reportWritten (t : Nat)
  /-- INPUT_WITHIN_RANGE (R471). -/
  | inputWithinRange (voltage : Nat) (t : Nat)
  /-- COOLANT_INLET_NORMAL (R476). -/
  | coolantInletNormal (inlet : Int) (outlet : Int) (t : Nat)
  deriving DecidableEq, Repr

end Sys2Proof
end

