-- ==== Sys2Proof/Config.lean ====
section
/-!
DEFINITION. The free values of the model: constants without a body. Nothing in Lean can evaluate one or prove a value of
it, so a statement that mentions one holds whatever the device does. The first argument, where there is one, is the
counter State.free, which every use advances, so that two uses are not tied to each other.
-/

namespace Sys2Proof

/-- What a fault of cells, sources, wires or holds adds to the charge of line `line` in a pass, in product units: nothing but with
the probabilities of R85 and R87. -/
opaque Config.disturb (n line : Nat) : Int
/-- Error of the conversion of line `line` of a pass, in codes, beyond the nominal rounding; R83 bounds it on an array within its
figures (log entry 22). -/
opaque Config.adcError (n line : Nat) : Int
/-- Seed of the LFSR of an array, by its device-wide key, and the number below `m` that its value `x` draws: R273 gives the
polynomial, and no layout of the seed or of a draw (log entry 79). -/
opaque Config.lfsrSeed (key : Nat) : Nat
opaque Config.lfsrPick (x m : Nat) : Nat
/-- The payload and sign of a NaN that an FP32 operation on operands `a`, `b` returns (R187 says only "the IEEE 754
result"). -/
opaque Config.nanBits (a b : Nat) : Nat
/-- Results that the spec bounds and does not state bit for bit (R198): EXP, SILU, GELU, RECIP, RSQRT. -/
opaque Config.expBits (a imm : Nat) : Nat
opaque Config.siluBits (a : Nat) : Nat
opaque Config.geluBits (a : Nat) : Nat
opaque Config.swigluBits (a b : Nat) : Nat
opaque Config.recipBits (a : Nat) : Nat
opaque Config.rsqrtBits (a imm : Nat) : Nat
/-- exp and ln inside an attention engine (R99 bounds them and states no bits). -/
opaque Config.attExp (x : Nat) : Nat
opaque Config.attLn (x : Nat) : Nat
/-- Cryptographic functions, left uninterpreted: digests, signatures, key encapsulation and authenticated encryption. -/
opaque Config.shake256_512 (msg : Bytes) : Bytes
opaque Config.shake256_256 (msg : Bytes) : Bytes
opaque Config.mldsaVerify (key msg sig : Bytes) : Bool
opaque Config.mldsaSign (key msg : Bytes) : Bytes
opaque Config.mldsaPublic (seed : Bytes) : Bytes
opaque Config.mlkemDraw (n : Nat) : Bytes
opaque Config.mlkemPublic (key : Bytes) : Bytes
opaque Config.mlkemOpen (key cipher : Bytes) : Option Bytes
opaque Config.mlkemSeal (key : Bytes) (n : Nat) : Bytes × Bytes
opaque Config.gcmOpen (key iv aad cipher tag : Bytes) : Option Bytes
opaque Config.gcmSeal (key iv aad plain : Bytes) : Bytes × Bytes
/-- AES-256 counter mode from block `block` of a chunk's counter (R402). -/
opaque Config.ctrDecrypt (key : Bytes) (shard chunk block : Nat) (cipher : Bytes) : Bytes
/-- A fresh key or nonce drawn by the device. -/
opaque Config.freshBytes (n len : Nat) : Bytes
/-- Severity of an event-log record whose severity the spec does not state, and its event data but for the tag of R53
(Table 18-3). -/
opaque Config.logSeverity (n : Nat) : Nat
opaque Config.logData (n : Nat) : Nat
/-- A register or result value that the spec leaves open, one for each use. -/
opaque Config.freeValue (n : Nat) : Nat
/-- PAGE_CAP.block_caps and PAGE_CAP.has_irq of the pages whose chapter does not give them, by block code (Table 02-9). -/
opaque Config.pageCaps (code : Nat) : Nat
/-- Data that a unit takes from a slot in which its router sent it an empty flit: the spec states none. -/
opaque Config.emptyFlit (router port slot : Nat) : Nat
/-- Temperature of optical engine `e` in 1/16 °C at a device time (Table 15-17), and the transmit and receive powers of lane
`l` of it in 0.01 dBm (Table 15-19): the world's, not the package's. -/
opaque Config.opticTemp (e t : Nat) : Int
opaque Config.lanePower (e l t : Nat) (tx : Bool) : Int

/-- The images that the log flash of the module holds as shipped (type 1 to 3, copy 0 for A and 1 for B), the Baferdo firmware
key that the ROM holds, and the ROM version (R491, Table 17-16). -/
opaque Config.flashImage (type copy : Nat) : Bytes
opaque Config.firmwareKey : Bytes
opaque Config.romVersion : Nat

/-- The 4 KiB block of the host carve-out, from its start, at which bring-up places the host die image: the spec does not say. -/
opaque Config.hostImageBlock : Nat

/-- What a configuration image says (R494): the variant code, the module's identity digest, the Plaivo key, sustained and
peak power limits, the port address base, the helper data of the identity and the T1 blocks to map out. -/
structure CfgImage where
  variant : Nat
  moduleId : Bytes
  plaivoKey : Bytes
  sustained : Nat
  peak : Nat
  portBase : Nat
  helper : Bytes
  mapouts : List Nat
  deriving DecidableEq, Repr, Inhabited

/-- The content of a configuration image; the spec names what it holds and not where. -/
opaque Config.cfgContent (image : Bytes) : CfgImage

end Sys2Proof
end

