-- ==== Sys2Proof/Machine/Sparse.lean ====
section
/-!
DEFINITION. Sparse maps: a list of (key, value) pairs with strictly rising keys and no pair that holds the value an
unlisted key reads as. Every memory and every table of State that is mostly at its reset value is one of these.
-/

namespace Sys2Proof.Machine

/-- A sparse map with natural-number keys. -/
abbrev Sparse (β : Type) := List (Nat × β)

variable {β : Type}

/-- The value at key `a`; `d` is what an unlisted key reads as. -/
def look (d : β) : Sparse β → Nat → β
  | [], _ => d
  | (k, v) :: m, a => if a = k then v else look d m a

/-- List a value at its key's place. -/
def place : Sparse β → Nat → β → Sparse β
  | [], a, v => [(a, v)]
  | (k, w) :: m, a, v =>
    if a < k then (a, v) :: (k, w) :: m
    else if a = k then (a, v) :: m
    else (k, w) :: place m a v

/-- Set the value at key `a`, keeping the canonical form: the value that an unlisted key reads as is not listed. -/
def put [DecidableEq β] (d : β) (m : Sparse β) (a : Nat) (v : β) : Sparse β :=
  if v = d then m.filter (fun e => e.1 != a) else place m a v

/-- Every key of the map is above `lo`, keys rise strictly, and no entry holds its key's default. -/
def wfAbove [DecidableEq β] (d : Nat → β) (lo : Nat) : Sparse β → Bool
  | [] => true
  | (k, v) :: m => decide (lo < k) && decide (v ≠ d k) && wfAbove d k m

/-- The canonical form of a sparse map. -/
def sparseWf [DecidableEq β] (d : Nat → β) : Sparse β → Bool
  | [] => true
  | (k, v) :: m => decide (v ≠ d k) && wfAbove d k m

/-- Keep only the entries of a map whose key satisfies `p`. -/
def keep (p : Nat → Bool) (m : Sparse β) : Sparse β := m.filter (fun e => p e.1)

/-- Change the value at a key by a function. -/
def adjust [DecidableEq β] (d : β) (m : Sparse β) (a : Nat) (f : β → β) : Sparse β := put d m a (f (look d m a))

end Sys2Proof.Machine
end

