-- ==== Sys2Proof/Machine/Bits.lean ====
section
/-!
DEFINITION. Bit fields (written NAME[hi:lo] in the spec), little-endian byte strings (R9), CRC-32C (R424) and small list
helpers.
-/

namespace Sys2Proof.Machine

/-- Bits [hi:lo] of a number. -/
def bits (x hi lo : Nat) : Nat := (x >>> lo) % 2 ^ (hi + 1 - lo)

/-- Bit `i` of a number. -/
def bitAt (x i : Nat) : Bool := (x >>> i) % 2 = 1

/-- 1 or 0. -/
def b2n (b : Bool) : Nat := if b then 1 else 0

/-- A register word packed from (low bit, value) fields that do not overlap. -/
def packW (fs : List (Nat × Nat)) : W32 := BitVec.ofNat 32 (fs.foldl (fun acc f => acc + f.2 * 2 ^ f.1) 0)

/-- Bits [hi:lo] of a register word. -/
def fieldW (w : W32) (hi lo : Nat) : Nat := bits w.toNat hi lo

/-- A register word with bits [hi:lo] replaced. -/
def withFieldW (w : W32) (hi lo v : Nat) : W32 :=
  BitVec.ofNat 32 (w.toNat - bits w.toNat hi lo * 2 ^ lo + (v % 2 ^ (hi + 1 - lo)) * 2 ^ lo)

/-- The low and the high word of a 64-bit register (R9). -/
def loW (v : Nat) : W32 := BitVec.ofNat 32 v
def hiW (v : Nat) : W32 := BitVec.ofNat 32 (v / 2 ^ 32)

/-- Little-endian value of a byte string (R9). -/
def leNat : Bytes → Nat
  | [] => 0
  | b :: bs => b.toNat + 256 * leNat bs

/-- The `n` little-endian bytes of a value. -/
def leBytes : Nat → Nat → Bytes
  | 0, _ => []
  | n + 1, v => BitVec.ofNat 8 v :: leBytes n (v / 256)

/-- Field of `n` bytes at offset `off` of a byte string; bytes past its end read as zero. -/
def fieldB (bs : Bytes) (off n : Nat) : Nat := leNat ((bs.drop off).take n)

/-- Signed value of a `w`-bit field (R10). -/
def signedOf (w x : Nat) : Int := if x % 2 ^ w < 2 ^ (w - 1) then (x % 2 ^ w : Nat) else (x % 2 ^ w : Nat) - (2 ^ w : Nat)

/-- The `w`-bit field of a signed value (R10). -/
def signedBits (w : Nat) (x : Int) : Nat := (x % (2 ^ w : Nat)).toNat

/-- An integer held within two bounds. -/
def clampI (lo hi x : Int) : Int := if x < lo then lo else if hi < x then hi else x

/-- One bit step of the reflected CRC-32C (polynomial 0x1EDC_6F41, reflected 0x82F6_3B78). -/
def crcBit (c : Nat) : Nat := if c % 2 = 1 then (c / 2) ^^^ 0x82F63B78 else c / 2

/-- Eight bit steps. -/
def crcByte (c : Nat) (b : Byte) : Nat :=
  crcBit (crcBit (crcBit (crcBit (crcBit (crcBit (crcBit (crcBit (c ^^^ b.toNat))))))))

/-- CRC-32C of a byte string: initial value and final XOR 0xFFFF_FFFF (R424). -/
def crc32c (bs : Bytes) : Nat := (bs.foldl crcByte 0xFFFFFFFF) ^^^ 0xFFFFFFFF

/-- The `n` natural numbers from `a` on. -/
def upFrom (a : Nat) : Nat → List Nat
  | 0 => []
  | n + 1 => a :: upFrom (a + 1) n

/-- Sum of a list of numbers. -/
def sumL (l : List Nat) : Nat := l.foldl (· + ·) 0

/-- Largest number of a list, 0 when empty. -/
def maxL (l : List Nat) : Nat := l.foldl max 0

/-- Element `i` of a list or a default. -/
def nth {α : Type} (d : α) (l : List α) (i : Nat) : α := (l[i]?).getD d

/-- Replace element `i` of a list. -/
def setNth {α : Type} (l : List α) (i : Nat) (v : α) : List α := l.set i v

/-- Insert a number in ascending order without repeats. -/
def insertAsc (x : Nat) : List Nat → List Nat
  | [] => [x]
  | y :: ys => if x < y then x :: y :: ys else if x = y then y :: ys else y :: insertAsc x ys

/-- ⌈a / b⌉. -/
def ceilDiv (a b : Nat) : Nat := (a + b - 1) / b

/-- ⌈log₂ n⌉ with ⌈log₂ 1⌉ = 0. -/
def log2Up (n : Nat) : Nat := if n ≤ 1 then 0 else Nat.log2 (n - 1) + 1

end Sys2Proof.Machine
end

