-- ==== Sys2Proof/Machine/Float.lean ====
section
/-!
DEFINITION. Floating-point numbers as exact dyadic numbers rounded once (R103, R175, R198): FP32, BF16, FP16 and FP8 E4M3.
A number is kept as its bit pattern, a Nat; every operation decodes, computes exactly and rounds to nearest, ties to even.
-/

namespace Sys2Proof.Machine

/-- A decoded number: `fin neg m e` is ±m·2^e. -/
inductive FVal where
  | nan
  | inf (neg : Bool)
  | fin (neg : Bool) (m : Nat) (e : Int)
  deriving DecidableEq, Repr

/-- A binary format: exponent bits, fraction bits, and the largest finite code below the sign bit. -/
structure FFmt where
  eb : Nat
  mb : Nat
  maxCode : Nat
  deriving DecidableEq, Repr

def fp32 : FFmt := ⟨8, 23, 0x7F7FFFFF⟩
def bf16 : FFmt := ⟨8, 7, 0x7F7F⟩
def fp16 : FFmt := ⟨5, 10, 0x7BFF⟩
/-- OCP FP8 E4M3: no infinity, NaN at 0x7F, largest value 448. -/
def e4m3 : FFmt := ⟨4, 3, 0x7E⟩

/-- Exponent of the least significant bit of a subnormal of the format. -/
def FFmt.qmin (f : FFmt) : Int := 2 - (2 ^ (f.eb - 1) : Nat) - (f.mb : Int)

/-- Decode a bit pattern. -/
def FFmt.decode (f : FFmt) (x : Nat) : FVal :=
  let neg := bitAt x (f.eb + f.mb)
  let mag := x % 2 ^ (f.eb + f.mb)
  let e := mag / 2 ^ f.mb
  let fr := mag % 2 ^ f.mb
  if f.maxCode < mag then
    (if f.mb = 3 then .nan else if fr = 0 then .inf neg else .nan)
  else if e = 0 then .fin neg fr f.qmin
  else .fin neg (fr + 2 ^ f.mb) (f.qmin + (e : Int) - 1)

/-- m·2^(−sh) rounded to nearest, ties to even; `st` says that a nonzero part below m was dropped before. -/
def rneShift (m sh : Nat) (st : Bool) : Nat :=
  if sh = 0 then m else
    let q := m / 2 ^ sh
    let r := m % 2 ^ sh
    let half := 2 ^ (sh - 1)
    if half < r || (r == half && (st || q % 2 == 1)) then q + 1 else q

/-- The magnitude code of m·2^e in a format, rounded to nearest even; beyond the finite range the code exceeds `maxCode`. -/
def FFmt.magCode (f : FFmt) (m : Nat) (e : Int) (st : Bool) : Nat :=
  if m = 0 then 0 else
    let top : Int := e + (Nat.log2 m : Nat)
    let q : Int := max (top - f.mb) f.qmin
    let mant := if q ≤ e then m * 2 ^ (e - q).toNat else rneShift m (q - e).toNat st
    (q - f.qmin).toNat * 2 ^ f.mb + mant

/-- The bits of ±m·2^e, saturated at the largest finite value; the flag says that it saturated. -/
def FFmt.round (f : FFmt) (neg : Bool) (m : Nat) (e : Int) (st : Bool) : Nat × Bool :=
  let c := f.magCode m e st
  let s := b2n neg * 2 ^ (f.eb + f.mb)
  if f.maxCode < c then (s + f.maxCode, true) else (s + c, false)

/-- The result of an FP32 operation: its bits, whether it saturated (Table 06-5 row 1), whether an operand was not finite
(row 2). -/
structure FRes where
  bits : Nat
  sat : Bool
  nonfin : Bool
  deriving DecidableEq, Repr

/-- A NaN whose sign and payload are free. -/
def nan32 (a b : Nat) : Nat :=
  let n := Config.nanBits a b
  (n / 2 ^ 23) % 2 * 2 ^ 31 + 0x7F800001 + n % 0x7FFFFF

def inf32 (neg : Bool) : Nat := b2n neg * 2 ^ 31 + 0x7F800000

/-- Round an exact finite value to FP32, saturating (R102). -/
def fin32 (neg : Bool) (m : Nat) (e : Int) (st : Bool) : FRes :=
  let r := fp32.round neg m e st
  ⟨r.1, r.2, false⟩

/-- Exact sum of two finite values as (sign, magnitude, exponent). -/
def addExact (n1 : Bool) (m1 : Nat) (e1 : Int) (n2 : Bool) (m2 : Nat) (e2 : Int) : Bool × Nat × Int :=
  let e := min e1 e2
  let a := m1 * 2 ^ (e1 - e).toNat
  let b := m2 * 2 ^ (e2 - e).toNat
  if n1 = n2 then (n1, a + b, e)
  else if a < b then (n2, b - a, e)
  else if b < a then (n1, a - b, e)
  else (false, 0, e)

/-- x + y of two decoded values, one rounding; `a`, `b` name the operands for a free NaN. -/
def addV (a b : Nat) (x y : FVal) : FRes :=
  match x, y with
  | .nan, _ | _, .nan => ⟨nan32 a b, false, true⟩
  | .inf s, .inf t => if s = t then ⟨inf32 s, false, true⟩ else ⟨nan32 a b, false, true⟩
  | .inf s, _ | _, .inf s => ⟨inf32 s, false, true⟩
  | .fin n1 m1 e1, .fin n2 m2 e2 =>
    let r := addExact n1 m1 e1 n2 m2 e2
    let neg := if r.2.1 = 0 then n1 && n2 else r.1
    fin32 neg r.2.1 r.2.2 false

/-- Exact product of two decoded values. -/
def mulV (x y : FVal) : FVal :=
  match x, y with
  | .nan, _ | _, .nan => .nan
  | .inf s, .inf t => .inf (s != t)
  | .inf s, .fin n m _ | .fin n m _, .inf s => if m = 0 then .nan else .inf (s != n)
  | .fin n1 m1 e1, .fin n2 m2 e2 => .fin (n1 != n2) (m1 * m2) (e1 + e2)

/-- Round a decoded value to FP32. -/
def roundV (a b : Nat) : FVal → FRes
  | .nan => ⟨nan32 a b, false, true⟩
  | .inf s => ⟨inf32 s, false, true⟩
  | .fin n m e => fin32 n m e false

def negV : FVal → FVal
  | .nan => .nan
  | .inf s => .inf (!s)
  | .fin n m e => .fin (!n) m e

def fAdd (a b : Nat) : FRes := addV a b (fp32.decode a) (fp32.decode b)
def fSub (a b : Nat) : FRes := addV a b (fp32.decode a) (negV (fp32.decode b))
def fMul (a b : Nat) : FRes := roundV a b (mulV (fp32.decode a) (fp32.decode b))
/-- a × b + c with one rounding. -/
def fFma (a b c : Nat) : FRes := addV a b (mulV (fp32.decode a) (fp32.decode b)) (fp32.decode c)

/-- a / b with one rounding. -/
def fDiv (a b : Nat) : FRes :=
  match fp32.decode a, fp32.decode b with
  | .nan, _ | _, .nan => ⟨nan32 a b, false, true⟩
  | .inf _, .inf _ => ⟨nan32 a b, false, true⟩
  | .inf s, .fin n _ _ => ⟨inf32 (s != n), false, true⟩
  | .fin n _ _, .inf s => ⟨b2n (n != s) * 2 ^ 31, false, true⟩
  | .fin n1 m1 e1, .fin n2 m2 e2 =>
    if m2 = 0 then (if m1 = 0 then ⟨nan32 a b, false, false⟩ else ⟨b2n (n1 != n2) * 2 ^ 31 + 0x7F7FFFFF, true, false⟩)
    else
      let k := 64 + Nat.log2 m2
      let num := m1 * 2 ^ k
      fin32 (n1 != n2) (num / m2) (e1 - e2 - k) (num % m2 != 0)

/-- ⌊√n⌋ by deciding one bit at a time, from bit `k - 1` down. -/
def isqrtFrom (n : Nat) : Nat → Nat → Nat
  | 0, r => r
  | k + 1, r => let t := r + 2 ^ k; isqrtFrom n k (if t * t ≤ n then t else r)

def isqrt (n : Nat) : Nat := isqrtFrom n (Nat.log2 n / 2 + 1) 0

/-- √a with one rounding. -/
def fSqrt (a : Nat) : FRes :=
  match fp32.decode a with
  | .nan => ⟨nan32 a a, false, true⟩
  | .inf s => if s then ⟨nan32 a a, false, true⟩ else ⟨inf32 false, false, true⟩
  | .fin n m e =>
    if m = 0 then ⟨a, false, false⟩
    else if n then ⟨nan32 a a, false, false⟩
    else
      let m' := if e % 2 = 0 then m * 2 ^ 64 else m * 2 ^ 65
      let e' := if e % 2 = 0 then e - 64 else e - 65
      let r := isqrt m'
      fin32 false r (e' / 2) (r * r != m')

/-- Order of two FP32 numbers, NaN aside: the value as a scaled integer. -/
def keyV : FVal → Int
  | .nan => 0
  | .inf s => if s then -(2 ^ 300 : Nat) else (2 ^ 300 : Nat)
  | .fin n m e => let v : Int := (m * 2 ^ (e + 149).toNat : Nat); if n then -v else v

def fLt (a b : Nat) : Bool := keyV (fp32.decode a) < keyV (fp32.decode b)
def isNan32 (a : Nat) : Bool := fp32.decode a == .nan
def isFin32 (a : Nat) : Bool := match fp32.decode a with | .fin _ _ _ => true | _ => false
def fAbs (a : Nat) : Nat := a % 2 ^ 31
def fNeg (a : Nat) : Nat := if a < 2 ^ 31 then a + 2 ^ 31 else a - 2 ^ 31
/-- max and min of Table 06-6; a NaN operand gives NaN (R193). -/
def fMax (a b : Nat) : FRes :=
  if isNan32 a || isNan32 b then ⟨nan32 a b, false, true⟩
  else ⟨if fLt a b then b else a, false, !(isFin32 a && isFin32 b)⟩
def fMin (a b : Nat) : FRes :=
  if isNan32 a || isNan32 b then ⟨nan32 a b, false, true⟩
  else ⟨if fLt b a then b else a, false, !(isFin32 a && isFin32 b)⟩

/-- An integer as FP32 (exact for counts up to 2^24). -/
def natF32 (n : Nat) : Nat := (fp32.round false n 0 false).1
def intF32 (neg : Bool) (n : Nat) (e : Int) : Nat := (fp32.round neg n e false).1

/-- FP32 to BF16 (Table 03-3): infinities and NaNs stay. -/
def toBf16 (a : Nat) : Nat :=
  match fp32.decode a with
  | .nan => a / 2 ^ 16 % 2 ^ 16 % 2 ^ 6 + b2n (bitAt a 31) * 2 ^ 15 + 0x7FC0
  | .inf s => b2n s * 2 ^ 15 + 0x7F80
  | .fin n m e => let c := bf16.magCode m e false; b2n n * 2 ^ 15 + min c 0x7F80

/-- BF16 widened to FP32 exactly (R141). -/
def ofBf16 (a : Nat) : Nat := a % 2 ^ 16 * 2 ^ 16

/-- FP32 to FP16 scale: to nearest even, saturating at ±65,504 (Table 03-3). -/
def toFp16 (a : Nat) : Nat :=
  match fp32.decode a with
  | .nan => 0x7E00
  | .inf s => b2n s * 2 ^ 15 + 0x7BFF
  | .fin n m e => (fp16.round n m e false).1

/-- FP32 to FP8 E4M3, saturating at ±448; the flag marks bound exceeded (Table 03-3). -/
def toE4m3 (a : Nat) : Nat × Bool :=
  match fp32.decode a with
  | .nan => (b2n (bitAt a 31) * 128 + 0x7F, true)
  | .inf s => (b2n s * 128 + 0x7E, true)
  | .fin n m e => e4m3.round n m e false

/-- A finite decoded value as a ratio: m·2^e with the sign, for comparisons of dyadics. -/
def dyLe (m1 : Nat) (e1 : Int) (m2 : Nat) (e2 : Int) : Bool :=
  let e := min e1 e2
  m1 * 2 ^ (e1 - e).toNat ≤ m2 * 2 ^ (e2 - e).toNat

/-- The smallest code of a format, at most `maxCode`, whose value is not below num/den · 2^e (scales rounded up, Table 05-2
and R104). -/
def FFmt.ceilCode (f : FFmt) (num den : Nat) (e : Int) : Nat :=
  if num = 0 || den = 0 then 0 else
    let k := 64 + Nat.log2 den
    let q := num * 2 ^ k / den
    let e' : Int := e - k
    let exactQ := num * 2 ^ k % den == 0
    let top : Int := e' + (Nat.log2 q : Nat)
    let g : Int := max (top - f.mb) f.qmin
    let mant := if g ≤ e' then q * 2 ^ (e' - g).toNat + b2n (!exactQ)
      else
        let sh := (g - e').toNat
        q / 2 ^ sh + b2n (!(exactQ && q % 2 ^ sh == 0))
    min ((g - f.qmin).toNat * 2 ^ f.mb + mant) f.maxCode

/-- Round a ratio a/b (b > 0) to the nearest integer, ties to even. -/
def rneDiv (a b : Nat) : Nat :=
  let q := a / b
  let r := a % b
  if b < 2 * r || (2 * r == b && q % 2 == 1) then q + 1 else q

end Sys2Proof.Machine
end

