-- ==== Sys2Proof/Machine/Elem.lean ====
section
/-!
DEFINITION. EXP, SILU, GELU, SWIGLU, RECIP and RSQRT of the vector unit (R198). The spec bounds their results and states no
bits: a result is the free value of Config where that value lies within the bound of R198, checked against an enclosure of the
exact value, and the enclosure's rounded end otherwise. So every result within the bound is possible, and no other.
-/

namespace Sys2Proof.Machine

/-- Fixed-point unit of the enclosures: 2⁻⁵¹². -/
abbrev fxBits : Nat := 512
abbrev fxOne : Nat := 2 ^ fxBits

/-- A finite FP32 number in fixed point, exactly. -/
def fixOf : FVal → Int
  | .fin n m e => let v : Int := (m * 2 ^ (e + fxBits).toNat : Nat); if n then -v else v
  | .nan | .inf _ => 0

/-- a / d of natural numbers, rounded down or up. -/
def divTo (up : Bool) (a d : Nat) : Nat := if up then ceilDiv a d else a / d

/-- The Taylor terms of exp(y) from term `i` on, 0 ≤ y ≤ 2⁻⁶. -/
def expTerms (up : Bool) (y : Nat) : Nat → Nat → Nat → Nat
  | 0, _, _ => b2n up
  | n + 1, i, t => t + expTerms up y n (i + 1) (divTo up (t * y) (fxOne * i))

/-- t raised to the power 2ⁿ. -/
def squares (up : Bool) : Nat → Nat → Nat
  | 0, t => t
  | n + 1, t => squares up n (divTo up (t * t) fxOne)

/-- A bound of exp(x) for x ≥ 0, below or above; far beyond the FP32 range, any number there. -/
def expPos (up : Bool) (x : Nat) : Nat :=
  if 1024 * fxOne < x then 2 ^ 1477 * fxOne
  else squares up 16 (expTerms up (divTo up x (2 ^ 16)) 60 1 fxOne)

/-- A bound of exp(x), below or above. -/
def expTo (up : Bool) (x : Int) : Nat :=
  if x < 0 then divTo up (fxOne * fxOne) (expPos (!up) x.natAbs) else expPos up x.natAbs

/-- An interval that holds an exact value. -/
structure Enc where
  lo : Int
  hi : Int
  deriving DecidableEq, Repr

/-- An interval times an exact number. -/
def Enc.mul (x : Enc) (a : Int) : Enc :=
  let p := min (a * x.lo) (a * x.hi)
  let q := max (a * x.lo) (a * x.hi)
  ⟨p / (fxOne : Int), -((-q) / (fxOne : Int))⟩

/-- 1 / (1 + exp(−z)) for z in an interval. -/
def Enc.sigmoid (z : Enc) : Enc :=
  ⟨(divTo false (fxOne * fxOne) (fxOne + expTo true (-z.lo)) : Nat), (divTo true (fxOne * fxOne) (fxOne + expTo false (-z.hi)) : Nat)⟩

/-- Is `r` within the bound of R198 of some value of the interval: 2u relative where it is a normal FP32 number, 2⁻¹²⁶
elsewhere? -/
def Enc.admits (x : Enc) (r : Int) : Bool :=
  let t : Int := (2 ^ (fxBits - 126) : Nat)
  if t ≤ x.lo then x.lo * (2 ^ 23 - 1) ≤ r * 2 ^ 23 && r * 2 ^ 23 ≤ x.hi * (2 ^ 23 + 1)
  else if x.hi ≤ -t then x.lo * (2 ^ 23 + 1) ≤ r * 2 ^ 23 && r * 2 ^ 23 ≤ x.hi * (2 ^ 23 - 1)
  else x.lo - t ≤ r && r ≤ x.hi + t

/-- The largest finite FP32 number in fixed point. -/
abbrev fixMax : Int := ((2 ^ 24 - 1) * 2 ^ (104 + fxBits) : Nat)

/-- The result of a function whose exact value lies in an interval, given its free bits (R198, Table 06-5 row 1). -/
def elemRes (raw : Nat) (x : Enc) : FRes :=
  if fixMax < x.lo then ⟨0x7F7FFFFF, true, false⟩
  else if x.hi < -fixMax then ⟨0xFF7FFFFF, true, false⟩
  else
    match fp32.decode (raw % 2 ^ 32) with
    | .fin n m e =>
      if x.admits (fixOf (.fin n m e)) then ⟨raw % 2 ^ 32, false, false⟩ else fin32 (x.lo < 0) x.lo.natAbs (-512) false
    | .nan | .inf _ => fin32 (x.lo < 0) x.lo.natAbs (-512) false

/-- exp(a − c). Operands that are not finite give the IEEE 754 result. -/
def vExp (a c : Nat) : FRes :=
  if isFin32 a && isFin32 c then
    let x := fixOf (fp32.decode a) - fixOf (fp32.decode c)
    elemRes (Config.expBits a c) ⟨(expTo false x : Nat), (expTo true x : Nat)⟩
  else
    let d := (fSub a c).bits
    ⟨if isNan32 d then d else if bitAt d 31 then 0 else d, false, true⟩

/-- The sigmoid's interval for SILU and GELU at a finite operand. -/
def siluEnc (a : Int) : Enc := (Enc.sigmoid ⟨a, a⟩).mul a
/-- GELU by the tanh formula of Table 06-16: a / (1 + exp(−2z)), z = 0.7978846 · (a + 0.044715 · a³). -/
def geluEnc (a : Int) : Enc :=
  let cube := a * a * a / ((fxOne * fxOne : Nat) : Int)
  let num := 2 * 7978846 * (1000000 * a + 44715 * cube)
  (Enc.sigmoid ⟨num / 10000000000000, -((-num) / 10000000000000)⟩).mul a

/-- An operand that is not finite, by the steps of the formula: NaN for NaN and −∞, +∞ for +∞. -/
def siluInf (a : Nat) : Nat := if a = inf32 false then a else nan32 a a

def vSilu (a : Nat) : FRes :=
  if isFin32 a then elemRes (Config.siluBits a) (siluEnc (fixOf (fp32.decode a))) else ⟨siluInf a, false, true⟩
def vGelu (a : Nat) : FRes :=
  if isFin32 a then elemRes (Config.geluBits a) (geluEnc (fixOf (fp32.decode a))) else ⟨siluInf a, false, true⟩
/-- SILU(a) × b. -/
def vSwiglu (a b : Nat) : FRes :=
  if isFin32 a && isFin32 b then
    elemRes (Config.swigluBits a b) ((siluEnc (fixOf (fp32.decode a))).mul (fixOf (fp32.decode b)))
  else { fMul (if isFin32 a then (vSilu a).bits else siluInf a) b with nonfin := true }

/-- 1 / a; the quotient by zero lies beyond the range (Table 06-5 row 1). -/
def vRecip (a : Nat) : FRes :=
  let x := fixOf (fp32.decode a)
  if !isFin32 a || x = 0 then fDiv 0x3F800000 a
  else
    let q : Int := (fxOne * fxOne / x.natAbs : Nat)
    elemRes (Config.recipBits a) (if x < 0 then ⟨-q - 1, -q⟩ else ⟨q, q + 1⟩)

/-- 1 / sqrt(a + c). A negative sum has no root: its result is a free value. -/
def vRsqrt (a c : Nat) : FRes :=
  if isFin32 a && isFin32 c then
    let x := fixOf (fp32.decode a) + fixOf (fp32.decode c)
    if x < 0 then ⟨Config.rsqrtBits a c % 2 ^ 32, false, false⟩
    else if x = 0 then ⟨b2n (bitAt (fAdd a c).bits 31) * 2 ^ 31 + 0x7F7FFFFF, true, false⟩
    else
      let r : Int := (isqrt (fxOne * fxOne * fxOne / x.natAbs) : Nat)
      elemRes (Config.rsqrtBits a c) ⟨r, r + 1⟩
  else
    let d := (fAdd a c).bits
    ⟨if d = inf32 false then 0 else nan32 a c, false, true⟩

end Sys2Proof.Machine
end

