-- ==== Sys2Proof/Machine/Flags.lean ====
section
/-!
DEFINITION. The error codes of Table 02-26, the scribe flags of Table 14-7, the producers of Table 14-8 and the scribe of
Table 14-6.
-/

namespace Sys2Proof.Machine

/-- Table 02-26. -/
abbrev Err.badHandle : Nat := 0x01
abbrev Err.staleHandle : Nat := 0x02
abbrev Err.length : Nat := 0x03
abbrev Err.absentUnit : Nat := 0x04
abbrev Err.usesKnot : Nat := 0x05
abbrev Err.shareViolation : Nat := 0x06
abbrev Err.budget : Nat := 0x07
abbrev Err.residOverflow : Nat := 0x08
abbrev Err.poison : Nat := 0x09
abbrev Err.digest : Nat := 0x0A
abbrev Err.timeout : Nat := 0x0B
abbrev Err.signature : Nat := 0x0C
abbrev Err.genRetired : Nat := 0x0D
abbrev Err.conservation : Nat := 0x0E
abbrev Err.notReady : Nat := 0x0F
abbrev Err.uncorrectable : Nat := 0x10

/-- Table 14-7. -/
abbrev Flag.poison : Nat := 1
abbrev Flag.bound : Nat := 2
abbrev Flag.tentative : Nat := 4
abbrev Flag.stale : Nat := 8
abbrev Flag.unsealed : Nat := 16

/-- Is the poison flag set? -/
def Flag.isPoison (f : Nat) : Bool := f % 2 = 1

/-- The flags that pass from inputs to outputs: bits 0 to 3 (R425, R427). -/
def Flag.carried (f : Nat) : Nat := if bitAt f 4 then 0 else f % 16

/-- Is the data of the SRAM word lost? -/
def sramLost (x : SramRead) : Bool :=
  match x with
  | .double | .wrong => true
  | .clean | .corrected | .again => false

/-- Is the fault of the SRAM word permanent (Table 14-13)? -/
def sramPermanent (x : SramRead) : Bool :=
  match x with
  | .again | .wrong => true
  | .clean | .corrected | .double => false

/-- What a read of an SRAM word adds to the flags of its data (R411). -/
def sramFlags (x : SramRead) : Nat := if sramLost x then Flag.poison else 0

/-- Table 14-8: kind and instance of a producer on a die. -/
def producer (die kind inst : Nat) : Nat := die % 4 * 2 ^ 14 + kind % 16 * 2 ^ 10 + inst % 2 ^ 10

/-- Table 14-6. -/
def mkScribe (gen prod flags crc : Nat) : W64 :=
  BitVec.ofNat 64 (gen % 256 * 2 ^ 56 + prod % 2 ^ 16 * 2 ^ 40 + flags % 256 * 2 ^ 32 + crc % 2 ^ 32)

def scribeCrc (w : W64) : Nat := bits w.toNat 31 0
def scribeFlags (w : W64) : Nat := bits w.toNat 39 32
def scribeProducer (w : W64) : Nat := bits w.toNat 55 40
def scribeGen (w : W64) : Nat := bits w.toNat 63 56

/-- The scribe of a block filled at power-up (R418): the CRC-32C of 4,096 zero bytes, flags 0, the fill producer. -/
def fillScribe : W64 := mkScribe 0 (producer 0 7 0) 0 0x98F94189

/-- The unsealed scribe of a host write (R426). -/
def hostScribe : W64 := mkScribe 0 0xFFFF Flag.unsealed 0

end Sys2Proof.Machine
end

