-- ==== Sys2Proof/Machine/RegTable.lean ====
section
/-!
DEFINITION. The register words of every block page, as the field tables of spec/ give them (one row per 32-bit word:
offset, the bits software may write, the write-one-to-clear bits, the read-to-clear bits, the write-only bits and the
reset value). A field whose reset is HW has reset 0 here: it is a view, computed when the word is read.
-/

namespace Sys2Proof

/-- Offsets of the registers in their page (the captions of the register tables; Tables 02-8 to 02-18 give the header). -/
abbrev Reg.PAGE_ID : Nat := 0x000
abbrev Reg.PAGE_CAP : Nat := 0x004
abbrev Reg.PAGE_CTRL : Nat := 0x008
abbrev Reg.PAGE_STAT : Nat := 0x00C
abbrev Reg.PAGE_IRQ_STAT : Nat := 0x010
abbrev Reg.PAGE_IRQ_EN : Nat := 0x014
abbrev Reg.PAGE_ERR_CODE : Nat := 0x018
abbrev Reg.PAGE_ERR_INFO : Nat := 0x01C
abbrev Reg.PAGE_ERR_ADDR : Nat := 0x020
abbrev Reg.PAGE_SNAP_SEQ : Nat := 0x028
abbrev Reg.PAGE_OWNER : Nat := 0x02C
abbrev Reg.DEV_STATUS : Nat := 0x040
abbrev Reg.DEV_READY : Nat := 0x044
abbrev Reg.DEV_PORT_READY : Nat := 0x048
abbrev Reg.DEV_TIME : Nat := 0x050
abbrev Reg.PRES_DEVICE : Nat := 0x040
abbrev Reg.PRES_COMPUTE : Nat := 0x044
abbrev Reg.PRES_IO : Nat := 0x048
abbrev Reg.PRES_RETIRED : Nat := 0x04C
abbrev Reg.PRES_KNOT_VER : Nat := 0x050
abbrev Reg.PRES_BENT_LIVE : Nat := 0x060
abbrev Reg.MC_STATUS : Nat := 0x040
abbrev Reg.MC_HEARTBEAT : Nat := 0x044
abbrev Reg.MC_STEP_END : Nat := 0x050
abbrev Reg.SEC_ID_SEL : Nat := 0x040
abbrev Reg.SEC_ID_DATA : Nat := 0x044
abbrev Reg.SEC_MODULE_ID : Nat := 0x048
abbrev Reg.SEC_ROM_VERSION : Nat := 0x068
abbrev Reg.SEC_FW_VERSION : Nat := 0x06C
abbrev Reg.SEC_CFG_VERSION : Nat := 0x070
abbrev Reg.SEC_HOST_VERSION : Nat := 0x074
abbrev Reg.SEC_UPDATE_ADDR : Nat := 0x078
abbrev Reg.SEC_UPDATE : Nat := 0x080
abbrev Reg.SEC_ATTEST_BLOCK : Nat := 0x088
abbrev Reg.SEC_ATTEST : Nat := 0x090
abbrev Reg.LOG_STATUS : Nat := 0x040
abbrev Reg.LOG_HEAD : Nat := 0x048
abbrev Reg.LOG_SEL : Nat := 0x050
abbrev Reg.LOG_AUDIT_CFG : Nat := 0x058
abbrev Reg.LOG_CONS : Nat := 0x05C
abbrev Reg.LOG_CONS_CTRL : Nat := 0x060
abbrev Reg.LOG_DATA : Nat := 0x080
abbrev Reg.LOG_RECORD_COUNT : Nat := 0x0C0
abbrev Reg.LOG_LOST_COUNT : Nat := 0x0C4
abbrev Reg.LOG_AUDIT_COUNT : Nat := 0x0C8
abbrev Reg.LOG_AUDIT_FAIL_COUNT : Nat := 0x0CC
abbrev Reg.LOG_MON_CMD_COUNT : Nat := 0x0D0
abbrev Reg.SNAP_STATUS : Nat := 0x040
abbrev Reg.SNAP_CTRL : Nat := 0x044
abbrev Reg.SNAP_SEQ : Nat := 0x048
abbrev Reg.SNAP_SLOT : Nat := 0x050
abbrev Reg.SNAP_DONE_TIME : Nat := 0x058
abbrev Reg.SNAP_REQUEST_COUNT : Nat := 0x080
abbrev Reg.SNAP_REFUSED_COUNT : Nat := 0x084
abbrev Reg.PWR_STATUS : Nat := 0x040
abbrev Reg.PWR_WAKE_LAT : Nat := 0x044
abbrev Reg.PWR_IDLE_HOLD : Nat := 0x048
abbrev Reg.PWR_WAKE : Nat := 0x04C
abbrev Reg.PWR_LIMIT : Nat := 0x050
abbrev Reg.PWR_INPUT : Nat := 0x054
abbrev Reg.PWR_POWER : Nat := 0x058
abbrev Reg.PWR_DEMAND : Nat := 0x05C
abbrev Reg.PWR_ENERGY : Nat := 0x060
abbrev Reg.PWR_LAST_WAKE : Nat := 0x068
abbrev Reg.PWR_ENTRY_COUNT : Nat := 0x080
abbrev Reg.PWR_WAKE_COUNT : Nat := 0x084
abbrev Reg.PWR_THROTTLE_COUNT : Nat := 0x088
abbrev Reg.PWR_INPUT_WARN_COUNT : Nat := 0x08C
abbrev Reg.THM_STATUS : Nat := 0x040
abbrev Reg.THM_MAX : Nat := 0x044
abbrev Reg.THM_DEMAND : Nat := 0x048
abbrev Reg.THM_SENSOR_SEL : Nat := 0x04C
abbrev Reg.THM_SENSOR_DATA : Nat := 0x050
abbrev Reg.THM_SENSOR_RAW : Nat := 0x054
abbrev Reg.THM_COOLANT : Nat := 0x058
abbrev Reg.THM_TRIP : Nat := 0x05C
abbrev Reg.THM_TRIP_SEQ : Nat := 0x060
abbrev Reg.THM_TRIP_ACK : Nat := 0x064
abbrev Reg.THM_THROTTLE_COUNT : Nat := 0x080
abbrev Reg.THM_THROTTLE_US : Nat := 0x084
abbrev Reg.THM_BROKEN_COUNT : Nat := 0x088
abbrev Reg.THM_COOLANT_WARN_COUNT : Nat := 0x08C
abbrev Reg.FAB_STATUS : Nat := 0x040
abbrev Reg.FAB_PACER : Nat := 0x044
abbrev Reg.FAB_SLOT : Nat := 0x048
abbrev Reg.FAB_BRIDGE : Nat := 0x050
abbrev Reg.FAB_KNOT_CTRL : Nat := 0x054
abbrev Reg.FAB_RING_SHARE : Nat := 0x058
abbrev Reg.FAB_SHARE_T : Nat := 0x060
abbrev Reg.FAB_SHARE_USED_T : Nat := 0x0E0
abbrev Reg.FAB_KNOT_SEL : Nat := 0x160
abbrev Reg.FAB_KNOT_DATA : Nat := 0x164
abbrev Reg.FAB_LAST_STALL : Nat := 0x168
abbrev Reg.FAB_FLIT_CRC_COUNT : Nat := 0x180
abbrev Reg.FAB_BRIDGE_REPLAY_COUNT : Nat := 0x184
abbrev Reg.FAB_BRIDGE_POISON_COUNT : Nat := 0x188
abbrev Reg.FAB_LATE_COUNT : Nat := 0x18C
abbrev Reg.FAB_MERGE_COUNT : Nat := 0x190
abbrev Reg.FAB_MERGE_CONFLICT_COUNT : Nat := 0x194
abbrev Reg.FAB_ALIGN_SLOTS : Nat := 0x198
abbrev Reg.FAB_STALL_COUNT : Nat := 0x19C
abbrev Reg.PLAN_STATUS : Nat := 0x040
abbrev Reg.PLAN_CTX_SEL : Nat := 0x044
abbrev Reg.PLAN_CTX_STATE : Nat := 0x048
abbrev Reg.PLAN_CTX_STEPS : Nat := 0x050
abbrev Reg.PLAN_ESC_SEL : Nat := 0x058
abbrev Reg.PLAN_ESC : Nat := 0x05C
abbrev Reg.PLAN_LAST_LOAD : Nat := 0x060
abbrev Reg.PLAN_LOAD_COUNT : Nat := 0x080
abbrev Reg.PLAN_REFUSE_COUNT : Nat := 0x084
abbrev Reg.PLAN_STEP_COUNT : Nat := 0x088
abbrev Reg.PLAN_ABANDON_COUNT : Nat := 0x08C
abbrev Reg.PLAN_TIMEOUT_COUNT : Nat := 0x090
abbrev Reg.PLAN_GATE_WAIT : Nat := 0x094
abbrev Reg.PLAN_ESC_TAKEN_COUNT : Nat := 0x098
abbrev Reg.PLAN_ESC_UNAVAIL_COUNT : Nat := 0x09C
abbrev Reg.QUE_STATUS : Nat := 0x040
abbrev Reg.QUE_ADMIN_SEL : Nat := 0x044
abbrev Reg.QUE_ADMIN_BASE : Nat := 0x048
abbrev Reg.QUE_ADMIN_CFG : Nat := 0x050
abbrev Reg.QUE_DOORBELL : Nat := 0x058
abbrev Reg.QUE_ADMIN_CTRL : Nat := 0x060
abbrev Reg.QUE_TENANT_CAP_T : Nat := 0x080
abbrev Reg.QUE_CENSUS_INFLIGHT : Nat := 0x0C0
abbrev Reg.QUE_CENSUS_FREE : Nat := 0x0C4
abbrev Reg.QUE_CENSUS_QUEUES : Nat := 0x0C8
abbrev Reg.QUE_DESC_COUNT : Nat := 0x0E0
abbrev Reg.QUE_ERROR_COUNT : Nat := 0x0E4
abbrev Reg.QUE_CQ_FULL_COUNT : Nat := 0x0E8
abbrev Reg.QUE_DOORBELL_DROP_COUNT : Nat := 0x0EC
abbrev Reg.SYNC_STATUS : Nat := 0x040
abbrev Reg.SYNC_CENSUS_FREE : Nat := 0x044
abbrev Reg.SYNC_HOST_HANDLE : Nat := 0x048
abbrev Reg.SYNC_HOST_VALUE : Nat := 0x050
abbrev Reg.SYNC_HOST_CMD : Nat := 0x058
abbrev Reg.SYNC_ADD_COUNT : Nat := 0x060
abbrev Reg.SYNC_SET_COUNT : Nat := 0x064
abbrev Reg.SYNC_WAIT_COUNT : Nat := 0x068
abbrev Reg.SYNC_TIMEOUT_COUNT : Nat := 0x06C
abbrev Reg.SYNC_TIE_COUNT : Nat := 0x070
abbrev Reg.SYNC_REFUSED_COUNT : Nat := 0x074
abbrev Reg.REQ_STATUS : Nat := 0x040
abbrev Reg.REQ_CTRL : Nat := 0x044
abbrev Reg.REQ_ENTRY_SEL : Nat := 0x048
abbrev Reg.REQ_CTX_SEL : Nat := 0x04C
abbrev Reg.REQ_CTX_CFG : Nat := 0x050
abbrev Reg.REQ_CTX_URGENT : Nat := 0x054
abbrev Reg.REQ_CTX_GEN : Nat := 0x058
abbrev Reg.REQ_CENSUS_FREE : Nat := 0x060
abbrev Reg.REQ_CENSUS_LIVE : Nat := 0x064
abbrev Reg.REQ_CENSUS_ENDED : Nat := 0x068
abbrev Reg.REQ_TOKENS_COMMITTED : Nat := 0x070
abbrev Reg.REQ_TOKENS_DELIVERED : Nat := 0x078
abbrev Reg.REQ_ADMIT_COUNT : Nat := 0x080
abbrev Reg.REQ_ADMIT_REFUSED_COUNT : Nat := 0x084
abbrev Reg.REQ_COMPLETE_COUNT : Nat := 0x088
abbrev Reg.REQ_CANCEL_COUNT : Nat := 0x08C
abbrev Reg.REQ_CANCEL_LATE_COUNT : Nat := 0x090
abbrev Reg.REQ_EXPIRE_COUNT : Nat := 0x094
abbrev Reg.REQ_FAULT_COUNT : Nat := 0x098
abbrev Reg.REQ_YIELD_COUNT : Nat := 0x09C
abbrev Reg.REQ_SLIP_GEN_COUNT : Nat := 0x0A0
abbrev Reg.REQ_SLIP_CAP_COUNT : Nat := 0x0A4
abbrev Reg.REQ_SLIP_OUTPUT_COUNT : Nat := 0x0A8
abbrev Reg.REQ_REJECT_COUNT : Nat := 0x0AC
abbrev Reg.REQ_DEADLINE_MISS_COUNT : Nat := 0x0B0
abbrev Reg.REQ_ENTRY_DATA : Nat := 0x100
abbrev Reg.KVP_STATUS : Nat := 0x040
abbrev Reg.KVP_CTRL : Nat := 0x044
abbrev Reg.KVP_POOL_BASE : Nat := 0x048
abbrev Reg.KVP_POOL_FRAMES : Nat := 0x050
abbrev Reg.KVP_SPILL_ON : Nat := 0x054
abbrev Reg.KVP_SPILL_OFF : Nat := 0x058
abbrev Reg.KVP_SPILL_CFG : Nat := 0x05C
abbrev Reg.KVP_CENSUS_FREE : Nat := 0x060
abbrev Reg.KVP_CENSUS_ALLOC : Nat := 0x064
abbrev Reg.KVP_CENSUS_TRANSIT : Nat := 0x068
abbrev Reg.KVP_FAR_PAGES : Nat := 0x06C
abbrev Reg.KVP_ALLOC_COUNT : Nat := 0x070
abbrev Reg.KVP_FREE_COUNT : Nat := 0x074
abbrev Reg.KVP_SPILL_COUNT : Nat := 0x078
abbrev Reg.KVP_FETCH_COUNT : Nat := 0x07C
abbrev Reg.KVP_SLIP_RESIDENT_COUNT : Nat := 0x080
abbrev Reg.KVP_SLIP_POOL_COUNT : Nat := 0x084
abbrev Reg.KVP_SLIP_BUDGET_COUNT : Nat := 0x088
abbrev Reg.KVP_XFER_FAIL_COUNT : Nat := 0x08C
abbrev Reg.KVP_LAST_FAIL : Nat := 0x090
abbrev Reg.WGT_STATUS : Nat := 0x040
abbrev Reg.WGT_HASH_CFG : Nat := 0x044
abbrev Reg.WGT_HASH_POS : Nat := 0x048
abbrev Reg.WGT_GEN_SEL : Nat := 0x04C
abbrev Reg.WGT_GEN_INFO : Nat := 0x050
abbrev Reg.WGT_LAST_MISMATCH : Nat := 0x054
abbrev Reg.WGT_HASH_BYTES : Nat := 0x058
abbrev Reg.WGT_FETCH_COUNT : Nat := 0x060
abbrev Reg.WGT_ARRIVAL_FAIL_COUNT : Nat := 0x064
abbrev Reg.WGT_READY_COUNT : Nat := 0x068
abbrev Reg.WGT_PASS_COUNT : Nat := 0x06C
abbrev Reg.WGT_TRANSIENT_COUNT : Nat := 0x070
abbrev Reg.WGT_QUARANTINE_COUNT : Nat := 0x074
abbrev Reg.WGT_SEAL_COUNT : Nat := 0x078
abbrev Reg.WGT_LOAD_REFUSED_COUNT : Nat := 0x07C
abbrev Reg.MEM_STATUS : Nat := 0x040
abbrev Reg.MEM_SCRUB_CFG : Nat := 0x044
abbrev Reg.MEM_SCRUB_POS : Nat := 0x048
abbrev Reg.MEM_SPARE : Nat := 0x058
abbrev Reg.MEM_HOST_LINK : Nat := 0x05C
abbrev Reg.MEM_INJECT : Nat := 0x060
abbrev Reg.MEM_INJECT_ADDR : Nat := 0x068
abbrev Reg.MEM_POISON_LIST : Nat := 0x070
abbrev Reg.MEM_CE_COUNT : Nat := 0x080
abbrev Reg.MEM_UE_COUNT : Nat := 0x084
abbrev Reg.MEM_POISON_READ_COUNT : Nat := 0x088
abbrev Reg.MEM_SCRUB_CE_COUNT : Nat := 0x08C
abbrev Reg.MEM_SCRUB_UE_COUNT : Nat := 0x090
abbrev Reg.MEM_TRANSIENT_COUNT : Nat := 0x094
abbrev Reg.MEM_MAPOUT_COUNT : Nat := 0x098
abbrev Reg.MEM_HOST_MODULE_LOSS_COUNT : Nat := 0x09C
abbrev Reg.SCRB_LAST_STATUS : Nat := 0x040
abbrev Reg.SCRB_LAST_SCRIBE : Nat := 0x048
abbrev Reg.SCRB_LAST_CRC : Nat := 0x050
abbrev Reg.SCRB_LAST_ADDR : Nat := 0x058
abbrev Reg.SCRB_CHECK_COUNT : Nat := 0x060
abbrev Reg.SCRB_CRC_FAIL_COUNT : Nat := 0x064
abbrev Reg.SCRB_TRANSIENT_COUNT : Nat := 0x068
abbrev Reg.SCRB_POISON_SET_COUNT : Nat := 0x06C
abbrev Reg.SCRB_FORMED_COUNT : Nat := 0x070
abbrev Reg.SCRB_UNSEALED_COUNT : Nat := 0x074
abbrev Reg.ATT_STATUS : Nat := 0x040
abbrev Reg.ATT_SHARE : Nat := 0x044
abbrev Reg.ATT_LAST_OVERRUN : Nat := 0x048
abbrev Reg.ATT_KV_BYTES : Nat := 0x050
abbrev Reg.ATT_BUSY_SLOTS : Nat := 0x058
abbrev Reg.ATT_TASK_COUNT : Nat := 0x060
abbrev Reg.ATT_BLOCK_COUNT : Nat := 0x064
abbrev Reg.ATT_OVERRUN_COUNT : Nat := 0x068
abbrev Reg.ATT_NONFINITE_COUNT : Nat := 0x06C
abbrev Reg.ATT_FP8_SAT_COUNT : Nat := 0x070
abbrev Reg.ATT_POISON_COUNT : Nat := 0x074
abbrev Reg.ATT_CFG : Nat := 0x078
abbrev Reg.GRAD_STATUS : Nat := 0x040
abbrev Reg.GRAD_FLUSH_SEQ : Nat := 0x044
abbrev Reg.GRAD_FOLD_PENDING : Nat := 0x048
abbrev Reg.GRAD_VECTOR_COUNT : Nat := 0x060
abbrev Reg.GRAD_FLUSH_COUNT : Nat := 0x064
abbrev Reg.GRAD_FOLD_COUNT : Nat := 0x068
abbrev Reg.GRAD_SWAP_WAIT : Nat := 0x06C
abbrev Reg.GRAD_NONFINITE_COUNT : Nat := 0x070
abbrev Reg.GRAD_POISON_COUNT : Nat := 0x074
abbrev Reg.PORT_STATUS : Nat := 0x040
abbrev Reg.PORT_CFG : Nat := 0x044
abbrev Reg.PORT_MAC : Nat := 0x048
abbrev Reg.PORT_TX_LIMIT : Nat := 0x050
abbrev Reg.PORT_TX_AVAIL : Nat := 0x054
abbrev Reg.PORT_TX_OUT : Nat := 0x058
abbrev Reg.PORT_RX_LIMIT : Nat := 0x05C
abbrev Reg.PORT_RX_HELD : Nat := 0x060
abbrev Reg.PORT_RX_FREE : Nat := 0x064
abbrev Reg.PORT_CHANNELS : Nat := 0x068
abbrev Reg.PORT_TX_BYTES : Nat := 0x070
abbrev Reg.PORT_RX_BYTES : Nat := 0x078
abbrev Reg.PORT_FEC_CORR_COUNT : Nat := 0x080
abbrev Reg.PORT_FEC_UNCORR_COUNT : Nat := 0x084
abbrev Reg.PORT_CRC_FAIL_COUNT : Nat := 0x088
abbrev Reg.PORT_NAK_COUNT : Nat := 0x08C
abbrev Reg.PORT_RETRY_COUNT : Nat := 0x090
abbrev Reg.PORT_FAILOVER_COUNT : Nat := 0x094
abbrev Reg.PORT_DISCARD_COUNT : Nat := 0x098
abbrev Reg.PORT_LANE_RETIRE_COUNT : Nat := 0x09C
abbrev Reg.OPT_STATUS : Nat := 0x040
abbrev Reg.OPT_LASER : Nat := 0x044
abbrev Reg.OPT_TEMP : Nat := 0x048
abbrev Reg.OPT_LANE_SEL : Nat := 0x04C
abbrev Reg.OPT_LANE_DATA : Nat := 0x050
abbrev Reg.OPT_LANE_BER : Nat := 0x054
abbrev Reg.OPT_LIGHT_LOST_COUNT : Nat := 0x060
abbrev Reg.OPT_LANE_FAULT_COUNT : Nat := 0x064
abbrev Reg.ARR_STATUS : Nat := 0x040
abbrev Reg.ARR_TAGS : Nat := 0x044
abbrev Reg.ARR_LOAD : Nat := 0x048
abbrev Reg.ARR_RANGE : Nat := 0x04C
abbrev Reg.ARR_CFG : Nat := 0x050
abbrev Reg.ARR_CTRL : Nat := 0x054
abbrev Reg.ARR_PASS_COUNT : Nat := 0x058
abbrev Reg.ARR_ZERO_SKIP_COUNT : Nat := 0x060
abbrev Reg.ARR_CLIP_COUNT : Nat := 0x064
abbrev Reg.ARR_SPLIT_COUNT : Nat := 0x068
abbrev Reg.ARR_SPLIT_CLIP_COUNT : Nat := 0x06C
abbrev Reg.ARR_MISS_COUNT : Nat := 0x070
abbrev Reg.ARR_TRANSIENT_COUNT : Nat := 0x074
abbrev Reg.ARR_WITHDRAWN_COUNT : Nat := 0x078
abbrev Reg.ARR_LAST_MISS : Nat := 0x07C
abbrev Reg.ARR_SWAP_COUNT : Nat := 0x080
abbrev Reg.ARR_SWAP_WAIT : Nat := 0x084
abbrev Reg.SHIM_STATUS : Nat := 0x040
abbrev Reg.SHIM_RESERVE : Nat := 0x044
abbrev Reg.SHIM_ESC_CFG : Nat := 0x048
abbrev Reg.SHIM_ESC_LAST : Nat := 0x04C
abbrev Reg.SHIM_COEF_SEL : Nat := 0x050
abbrev Reg.SHIM_COEF_DATA : Nat := 0x054
abbrev Reg.SHIM_OUTLIER_SEG_COUNT : Nat := 0x060
abbrev Reg.SHIM_OUTLIER_COUNT : Nat := 0x064
abbrev Reg.SHIM_SECOND_DEMAND_COUNT : Nat := 0x068
abbrev Reg.SHIM_SECOND_DRAWN_COUNT : Nat := 0x06C
abbrev Reg.SHIM_STORE_FULL_COUNT : Nat := 0x070
abbrev Reg.SHIM_BOUND_EXCEEDED_COUNT : Nat := 0x074
abbrev Reg.SHIM_NONFINITE_COUNT : Nat := 0x078
abbrev Reg.SHIM_SATURATE_COUNT : Nat := 0x07C
abbrev Reg.SHIM_RESIDUAL_REFUSED_COUNT : Nat := 0x080
abbrev Reg.SHIM_ESC_COUNT : Nat := 0x084
abbrev Reg.SHIM_BAD_SCALE_COUNT : Nat := 0x088
abbrev Reg.LEDG_STATUS : Nat := 0x040
abbrev Reg.LEDG_SAT : Nat := 0x044
abbrev Reg.LEDG_NONFINITE : Nat := 0x048
abbrev Reg.LEDG_ACC_SEL : Nat := 0x04C
abbrev Reg.LEDG_ACC_INFO : Nat := 0x050
abbrev Reg.LEDG_PARTIAL_COUNT : Nat := 0x060
abbrev Reg.LEDG_LATE_COUNT : Nat := 0x064
abbrev Reg.LEDG_EARLY_CLOSE_COUNT : Nat := 0x068
abbrev Reg.LEDG_PLIMIT_COUNT : Nat := 0x06C
abbrev Reg.LEDG_SAT_COUNT : Nat := 0x070
abbrev Reg.LEDG_NONFINITE_COUNT : Nat := 0x074
abbrev Reg.LEDG_HOST_DROP_COUNT : Nat := 0x078
abbrev Reg.LEDG_REDUCE_COUNT : Nat := 0x07C
abbrev Reg.LEDG_VEC_DROP_COUNT : Nat := 0x080
abbrev Reg.CAL_STATUS : Nat := 0x040
abbrev Reg.CAL_CTRL : Nat := 0x044
abbrev Reg.CAL_CFG : Nat := 0x048
abbrev Reg.CAL_TEMP : Nat := 0x04C
abbrev Reg.CAL_LAST_TIME : Nat := 0x050
abbrev Reg.CAL_LINE_SEL : Nat := 0x058
abbrev Reg.CAL_LINE_DATA : Nat := 0x05C
abbrev Reg.CAL_RESID : Nat := 0x060
abbrev Reg.CAL_NOISE : Nat := 0x064
abbrev Reg.CAL_MISS_RATE : Nat := 0x068
abbrev Reg.CAL_SECOND_RATE : Nat := 0x06C
abbrev Reg.CAL_TRIG_TEMP_COUNT : Nat := 0x0A0
abbrev Reg.CAL_TRIG_FIGURE_COUNT : Nat := 0x0A4
abbrev Reg.CAL_TRIG_HOST_COUNT : Nat := 0x0A8
abbrev Reg.CAL_RECAL_COUNT : Nat := 0x0AC
abbrev Reg.CAL_SAMPLE_COUNT : Nat := 0x0B0
abbrev Reg.CAL_UPDATE_COUNT : Nat := 0x0B4
abbrev Reg.CAL_DISCARD_COUNT : Nat := 0x0B8
abbrev Reg.CAL_CLAMP_COUNT : Nat := 0x0BC

/-- One 32-bit register word of a page. -/
structure WordDef where
  off : Nat
  rw : Nat
  w1c : Nat
  rc : Nat
  wo : Nat
  reset : Nat
  deriving DecidableEq, Repr

/-- Tables 02-8 to 02-18: the page header -/
def headerWords : List WordDef := [
  ⟨0x000, 0, 0, 0, 0, 1⟩, ⟨0x004, 0, 0, 0, 0, 0⟩,
  ⟨0x008, 0x7FF0001, 0, 0, 2, 0⟩, ⟨0x00C, 0, 0, 0, 0, 0⟩,
  ⟨0x010, 0, 0xFFFFFFFF, 0, 0, 0⟩, ⟨0x014, 0xFFFFFFFF, 0, 0, 0, 0⟩,
  ⟨0x018, 0, 0, 0, 0, 0⟩, ⟨0x01C, 0, 0, 0, 0, 0⟩,
  ⟨0x020, 0, 0, 0, 0, 0⟩, ⟨0x024, 0, 0, 0, 0, 0⟩,
  ⟨0x028, 0, 0, 0, 0, 0⟩, ⟨0x02C, 0xFBFF0000, 0, 0, 0, 0⟩]

/-- DEV page: Tables 17-7 to 17-10 -/
def devWords : List WordDef := [
  ⟨0x040, 0, 0, 0, 0, 0⟩, ⟨0x044, 0, 0, 0, 0, 0⟩,
  ⟨0x048, 0, 0, 0, 0, 0⟩, ⟨0x050, 0, 0, 0, 0, 0⟩,
  ⟨0x054, 0, 0, 0, 0, 0⟩]

/-- PRES page: Tables 02-19 to 02-24 -/
def presWords : List WordDef := [
  ⟨0x040, 0, 0, 0, 0, 0⟩, ⟨0x044, 0, 0, 0, 0, 0⟩,
  ⟨0x048, 0, 0, 0, 0, 0⟩, ⟨0x04C, 0, 0, 0, 0, 0⟩,
  ⟨0x050, 0, 0, 0, 0, 0⟩, ⟨0x060, 0, 0, 0, 0, 0⟩,
  ⟨0x064, 0, 0, 0, 0, 0⟩, ⟨0x068, 0, 0, 0, 0, 0⟩,
  ⟨0x06C, 0, 0, 0, 0, 0⟩]

/-- MC page: Tables 17-11 to 17-13 -/
def mcWords : List WordDef := [
  ⟨0x040, 0, 0, 0, 0, 0⟩, ⟨0x044, 0, 0, 0, 0, 0⟩,
  ⟨0x050, 0, 0, 0, 0, 0⟩, ⟨0x054, 0, 0, 0, 0, 0⟩,
  ⟨0x058, 0, 0, 0, 0, 0⟩, ⟨0x05C, 0, 0, 0, 0, 0⟩,
  ⟨0x060, 0, 0, 0, 0, 0⟩, ⟨0x064, 0, 0, 0, 0, 0⟩,
  ⟨0x068, 0, 0, 0, 0, 0⟩, ⟨0x06C, 0, 0, 0, 0, 0⟩]

/-- SEC page: Tables 17-14 to 17-19 -/
def secWords : List WordDef := [
  ⟨0x040, 0x1FF, 0, 0, 0, 0⟩, ⟨0x044, 0, 0, 0, 0, 0⟩,
  ⟨0x048, 0, 0, 0, 0, 0⟩, ⟨0x04C, 0, 0, 0, 0, 0⟩,
  ⟨0x050, 0, 0, 0, 0, 0⟩, ⟨0x054, 0, 0, 0, 0, 0⟩,
  ⟨0x058, 0, 0, 0, 0, 0⟩, ⟨0x05C, 0, 0, 0, 0, 0⟩,
  ⟨0x060, 0, 0, 0, 0, 0⟩, ⟨0x064, 0, 0, 0, 0, 0⟩,
  ⟨0x068, 0, 0, 0, 0, 0⟩, ⟨0x06C, 0, 0, 0, 0, 0⟩,
  ⟨0x070, 0, 0, 0, 0, 0⟩, ⟨0x074, 0, 0, 0, 0, 0⟩,
  ⟨0x078, 0xFFFFFFFF, 0, 0, 0, 0⟩, ⟨0x07C, 0xFFFFFFFF, 0, 0, 0, 0⟩,
  ⟨0x080, 6, 0, 0, 1, 0⟩, ⟨0x088, 0xFFFFFFFF, 0, 0, 0, 0⟩,
  ⟨0x08C, 0xFFFFFFFF, 0, 0, 0, 0⟩, ⟨0x090, 0, 0, 0, 1, 0⟩]

/-- LOG page: Tables 18-5 to 18-11, part 0 -/
def logWords0 : List WordDef := [
  ⟨0x040, 0, 0, 0, 0, 0⟩, ⟨0x048, 0, 0, 0, 0, 0⟩,
  ⟨0x04C, 0, 0, 0, 0, 0⟩, ⟨0x050, 0xFFFFFFFF, 0, 0, 0, 0⟩,
  ⟨0x054, 0xFFFFFFFF, 0, 0, 0, 0⟩, ⟨0x058, 0xFFFF, 0, 0, 0, 0x3E8⟩,
  ⟨0x05C, 0, 0, 0, 0, 0⟩, ⟨0x060, 0, 0, 0, 3, 0⟩,
  ⟨0x080, 0, 0, 0, 0, 0⟩, ⟨0x084, 0, 0, 0, 0, 0⟩,
  ⟨0x088, 0, 0, 0, 0, 0⟩, ⟨0x08C, 0, 0, 0, 0, 0⟩,
  ⟨0x090, 0, 0, 0, 0, 0⟩, ⟨0x094, 0, 0, 0, 0, 0⟩,
  ⟨0x098, 0, 0, 0, 0, 0⟩, ⟨0x09C, 0, 0, 0, 0, 0⟩,
  ⟨0x0A0, 0, 0, 0, 0, 0⟩, ⟨0x0A4, 0, 0, 0, 0, 0⟩,
  ⟨0x0A8, 0, 0, 0, 0, 0⟩, ⟨0x0AC, 0, 0, 0, 0, 0⟩,
  ⟨0x0B0, 0, 0, 0, 0, 0⟩, ⟨0x0B4, 0, 0, 0, 0, 0⟩,
  ⟨0x0B8, 0, 0, 0, 0, 0⟩, ⟨0x0BC, 0, 0, 0, 0, 0⟩]

/-- LOG page: Tables 18-5 to 18-11, part 1 -/
def logWords1 : List WordDef := [
  ⟨0x0C0, 0, 0, 0xFFFFFFFF, 0, 0⟩, ⟨0x0C4, 0, 0, 0xFFFFFFFF, 0, 0⟩,
  ⟨0x0C8, 0, 0, 0xFFFFFFFF, 0, 0⟩, ⟨0x0CC, 0, 0, 0xFFFFFFFF, 0, 0⟩,
  ⟨0x0D0, 0, 0, 0xFFFFFFFF, 0, 0⟩]

/-- SNAP page: Tables 18-12 to 18-14 -/
def snapWords : List WordDef := [
  ⟨0x040, 0, 0, 0, 0, 0⟩, ⟨0x044, 0, 0, 0, 3, 0⟩,
  ⟨0x048, 0, 0, 0, 0, 0⟩, ⟨0x050, 0, 0, 0, 0, 0⟩,
  ⟨0x054, 0, 0, 0, 0, 0⟩, ⟨0x058, 0, 0, 0, 0, 0⟩,
  ⟨0x05C, 0, 0, 0, 0, 0⟩, ⟨0x080, 0, 0, 0xFFFFFFFF, 0, 0⟩,
  ⟨0x084, 0, 0, 0xFFFFFFFF, 0, 0⟩]

/-- PWR page: Tables 16-8 to 16-18 -/
def pwrWords : List WordDef := [
  ⟨0x040, 0, 0, 0, 0, 0⟩, ⟨0x044, 0xFFFFFFFF, 0, 0, 0, 0⟩,
  ⟨0x048, 0xFFFFFFFF, 0, 0, 0, 0x3E8⟩, ⟨0x04C, 0, 0, 0, 1, 0⟩,
  ⟨0x050, 0xFFFFFFFF, 0, 0, 0, 0⟩, ⟨0x054, 0, 0, 0, 0, 0⟩,
  ⟨0x058, 0, 0, 0, 0, 0⟩, ⟨0x05C, 0, 0, 0, 0, 0x3E8⟩,
  ⟨0x060, 0, 0, 0, 0, 0⟩, ⟨0x064, 0, 0, 0, 0, 0⟩,
  ⟨0x068, 0, 0, 0, 0, 0⟩, ⟨0x080, 0, 0, 0xFFFFFFFF, 0, 0⟩,
  ⟨0x084, 0, 0, 0xFFFFFFFF, 0, 0⟩, ⟨0x088, 0, 0, 0xFFFFFFFF, 0, 0⟩,
  ⟨0x08C, 0, 0, 0xFFFFFFFF, 0, 0⟩]

/-- THM page: Tables 16-19 to 16-29 -/
def thmWords : List WordDef := [
  ⟨0x040, 0, 0, 0, 0, 0⟩, ⟨0x044, 0, 0, 0, 0, 0⟩,
  ⟨0x048, 0, 0, 0, 0, 0x3E8⟩, ⟨0x04C, 0xFF, 0, 0, 0, 0⟩,
  ⟨0x050, 0, 0, 0, 0, 0⟩, ⟨0x054, 0, 0, 0, 0, 0⟩,
  ⟨0x058, 0, 0, 0, 0, 0⟩, ⟨0x05C, 0, 0, 0, 0, 0⟩,
  ⟨0x060, 0, 0, 0, 0, 0⟩, ⟨0x064, 0, 0, 0, 0xFFFFFFFF, 0⟩,
  ⟨0x080, 0, 0, 0xFFFFFFFF, 0, 0⟩, ⟨0x084, 0, 0, 0xFFFFFFFF, 0, 0⟩,
  ⟨0x088, 0, 0, 0xFFFFFFFF, 0, 0⟩, ⟨0x08C, 0, 0, 0xFFFFFFFF, 0, 0⟩]

/-- FAB page: Tables 10-9 to 10-21, part 0 -/
def fabWords0 : List WordDef := [
  ⟨0x040, 0, 0, 0, 0, 0⟩, ⟨0x044, 0, 0, 0, 0, 0x3E8⟩,
  ⟨0x048, 0, 0, 0, 0, 0⟩, ⟨0x04C, 0, 0, 0, 0, 0⟩,
  ⟨0x050, 0, 0, 0, 0, 0⟩, ⟨0x054, 0, 0, 0, 3, 0⟩,
  ⟨0x058, 0xFFFFFFFF, 0, 0, 0, 0⟩, ⟨0x05C, 0xFFFFFFFF, 0, 0, 0, 0xFF000000⟩,
  ⟨0x060, 0xFFFFFFFF, 0, 0, 0, 0⟩, ⟨0x064, 0xFFFFFFFF, 0, 0, 0, 0⟩,
  ⟨0x068, 0xFFFFFFFF, 0, 0, 0, 0⟩, ⟨0x06C, 0xFFFFFFFF, 0, 0, 0, 0⟩,
  ⟨0x070, 0xFFFFFFFF, 0, 0, 0, 0⟩, ⟨0x074, 0xFFFFFFFF, 0, 0, 0, 0⟩,
  ⟨0x078, 0xFFFFFFFF, 0, 0, 0, 0⟩, ⟨0x07C, 0xFFFFFFFF, 0, 0, 0, 0⟩,
  ⟨0x080, 0xFFFFFFFF, 0, 0, 0, 0⟩, ⟨0x084, 0xFFFFFFFF, 0, 0, 0, 0⟩,
  ⟨0x088, 0xFFFFFFFF, 0, 0, 0, 0⟩, ⟨0x08C, 0xFFFFFFFF, 0, 0, 0, 0⟩,
  ⟨0x090, 0xFFFFFFFF, 0, 0, 0, 0⟩, ⟨0x094, 0xFFFFFFFF, 0, 0, 0, 0⟩,
  ⟨0x098, 0xFFFFFFFF, 0, 0, 0, 0⟩, ⟨0x09C, 0xFFFFFFFF, 0, 0, 0, 0⟩]

/-- FAB page: Tables 10-9 to 10-21, part 1 -/
def fabWords1 : List WordDef := [
  ⟨0x0A0, 0xFFFFFFFF, 0, 0, 0, 0⟩, ⟨0x0A4, 0xFFFFFFFF, 0, 0, 0, 0⟩,
  ⟨0x0A8, 0xFFFFFFFF, 0, 0, 0, 0⟩, ⟨0x0AC, 0xFFFFFFFF, 0, 0, 0, 0⟩,
  ⟨0x0B0, 0xFFFFFFFF, 0, 0, 0, 0⟩, ⟨0x0B4, 0xFFFFFFFF, 0, 0, 0, 0⟩,
  ⟨0x0B8, 0xFFFFFFFF, 0, 0, 0, 0⟩, ⟨0x0BC, 0xFFFFFFFF, 0, 0, 0, 0⟩,
  ⟨0x0C0, 0xFFFFFFFF, 0, 0, 0, 0⟩, ⟨0x0C4, 0xFFFFFFFF, 0, 0, 0, 0⟩,
  ⟨0x0C8, 0xFFFFFFFF, 0, 0, 0, 0⟩, ⟨0x0CC, 0xFFFFFFFF, 0, 0, 0, 0⟩,
  ⟨0x0D0, 0xFFFFFFFF, 0, 0, 0, 0⟩, ⟨0x0D4, 0xFFFFFFFF, 0, 0, 0, 0⟩,
  ⟨0x0D8, 0xFFFFFFFF, 0, 0, 0, 0⟩, ⟨0x0DC, 0xFFFFFFFF, 0, 0, 0, 0⟩,
  ⟨0x0E0, 0, 0, 0, 0, 0⟩, ⟨0x0E4, 0, 0, 0, 0, 0⟩,
  ⟨0x0E8, 0, 0, 0, 0, 0⟩, ⟨0x0EC, 0, 0, 0, 0, 0⟩,
  ⟨0x0F0, 0, 0, 0, 0, 0⟩, ⟨0x0F4, 0, 0, 0, 0, 0⟩,
  ⟨0x0F8, 0, 0, 0, 0, 0⟩, ⟨0x0FC, 0, 0, 0, 0, 0⟩]

/-- FAB page: Tables 10-9 to 10-21, part 2 -/
def fabWords2 : List WordDef := [
  ⟨0x100, 0, 0, 0, 0, 0⟩, ⟨0x104, 0, 0, 0, 0, 0⟩,
  ⟨0x108, 0, 0, 0, 0, 0⟩, ⟨0x10C, 0, 0, 0, 0, 0⟩,
  ⟨0x110, 0, 0, 0, 0, 0⟩, ⟨0x114, 0, 0, 0, 0, 0⟩,
  ⟨0x118, 0, 0, 0, 0, 0⟩, ⟨0x11C, 0, 0, 0, 0, 0⟩,
  ⟨0x120, 0, 0, 0, 0, 0⟩, ⟨0x124, 0, 0, 0, 0, 0⟩,
  ⟨0x128, 0, 0, 0, 0, 0⟩, ⟨0x12C, 0, 0, 0, 0, 0⟩,
  ⟨0x130, 0, 0, 0, 0, 0⟩, ⟨0x134, 0, 0, 0, 0, 0⟩,
  ⟨0x138, 0, 0, 0, 0, 0⟩, ⟨0x13C, 0, 0, 0, 0, 0⟩,
  ⟨0x140, 0, 0, 0, 0, 0⟩, ⟨0x144, 0, 0, 0, 0, 0⟩,
  ⟨0x148, 0, 0, 0, 0, 0⟩, ⟨0x14C, 0, 0, 0, 0, 0⟩,
  ⟨0x150, 0, 0, 0, 0, 0⟩, ⟨0x154, 0, 0, 0, 0, 0⟩,
  ⟨0x158, 0, 0, 0, 0, 0⟩, ⟨0x15C, 0, 0, 0, 0, 0⟩]

/-- FAB page: Tables 10-9 to 10-21, part 3 -/
def fabWords3 : List WordDef := [
  ⟨0x160, 0xFF, 0, 0, 0, 0⟩, ⟨0x164, 0, 0, 0, 0, 0⟩,
  ⟨0x168, 0, 0, 0, 0, 0⟩, ⟨0x180, 0, 0, 0xFFFFFFFF, 0, 0⟩,
  ⟨0x184, 0, 0, 0xFFFFFFFF, 0, 0⟩, ⟨0x188, 0, 0, 0xFFFFFFFF, 0, 0⟩,
  ⟨0x18C, 0, 0, 0xFFFFFFFF, 0, 0⟩, ⟨0x190, 0, 0, 0xFFFFFFFF, 0, 0⟩,
  ⟨0x194, 0, 0, 0xFFFFFFFF, 0, 0⟩, ⟨0x198, 0, 0, 0xFFFFFFFF, 0, 0⟩,
  ⟨0x19C, 0, 0, 0xFFFFFFFF, 0, 0⟩]

/-- PLAN page: Tables 11-14 to 11-21 -/
def planWords : List WordDef := [
  ⟨0x040, 0, 0, 0, 0, 0⟩, ⟨0x044, 0x3FF, 0, 0, 0, 0⟩,
  ⟨0x048, 0, 0, 0, 0, 0⟩, ⟨0x050, 0, 0, 0, 0, 0⟩,
  ⟨0x054, 0, 0, 0, 0, 0⟩, ⟨0x058, 0x3FF, 0, 0, 0, 0⟩,
  ⟨0x05C, 0, 0, 0, 3, 0⟩, ⟨0x060, 0, 0, 0, 0, 0⟩,
  ⟨0x080, 0, 0, 0xFFFFFFFF, 0, 0⟩, ⟨0x084, 0, 0, 0xFFFFFFFF, 0, 0⟩,
  ⟨0x088, 0, 0, 0xFFFFFFFF, 0, 0⟩, ⟨0x08C, 0, 0, 0xFFFFFFFF, 0, 0⟩,
  ⟨0x090, 0, 0, 0xFFFFFFFF, 0, 0⟩, ⟨0x094, 0, 0, 0xFFFFFFFF, 0, 0⟩,
  ⟨0x098, 0, 0, 0xFFFFFFFF, 0, 0⟩, ⟨0x09C, 0, 0, 0xFFFFFFFF, 0, 0⟩]

/-- QUE page: Tables 11-23 to 11-37, part 0 -/
def queWords0 : List WordDef := [
  ⟨0x040, 0, 0, 0, 0, 0⟩, ⟨0x044, 0xF, 0, 0, 0, 0⟩,
  ⟨0x048, 0xFFFFFFFF, 0, 0, 0, 0⟩, ⟨0x04C, 0xFFFFFFFF, 0, 0, 0, 0⟩,
  ⟨0x050, 0x8000FFFF, 0, 0, 0, 0xFFFF⟩, ⟨0x058, 0, 0, 0, 0xFFFFFFFF, 0⟩,
  ⟨0x05C, 0, 0, 0, 0xFFFFFFFF, 0⟩, ⟨0x060, 0xFFFFFFFF, 0, 0, 0, 0⟩,
  ⟨0x064, 0xFFFFFFFF, 0, 0, 0, 0⟩, ⟨0x080, 0xFFFF, 0, 0, 0, 0x9C40⟩,
  ⟨0x084, 0xFFFF, 0, 0, 0, 0x9C40⟩, ⟨0x088, 0xFFFF, 0, 0, 0, 0x9C40⟩,
  ⟨0x08C, 0xFFFF, 0, 0, 0, 0x9C40⟩, ⟨0x090, 0xFFFF, 0, 0, 0, 0x9C40⟩,
  ⟨0x094, 0xFFFF, 0, 0, 0, 0x9C40⟩, ⟨0x098, 0xFFFF, 0, 0, 0, 0x9C40⟩,
  ⟨0x09C, 0xFFFF, 0, 0, 0, 0x9C40⟩, ⟨0x0A0, 0xFFFF, 0, 0, 0, 0x9C40⟩,
  ⟨0x0A4, 0xFFFF, 0, 0, 0, 0x9C40⟩, ⟨0x0A8, 0xFFFF, 0, 0, 0, 0x9C40⟩,
  ⟨0x0AC, 0xFFFF, 0, 0, 0, 0x9C40⟩, ⟨0x0B0, 0xFFFF, 0, 0, 0, 0x9C40⟩,
  ⟨0x0B4, 0xFFFF, 0, 0, 0, 0x9C40⟩, ⟨0x0B8, 0xFFFF, 0, 0, 0, 0x9C40⟩]

/-- QUE page: Tables 11-23 to 11-37, part 1 -/
def queWords1 : List WordDef := [
  ⟨0x0BC, 0xFFFF, 0, 0, 0, 0x9C40⟩, ⟨0x0C0, 0, 0, 0, 0, 0⟩,
  ⟨0x0C4, 0, 0, 0, 0, 0x9C40⟩, ⟨0x0C8, 0, 0, 0, 0, 0⟩,
  ⟨0x0E0, 0, 0, 0xFFFFFFFF, 0, 0⟩, ⟨0x0E4, 0, 0, 0xFFFFFFFF, 0, 0⟩,
  ⟨0x0E8, 0, 0, 0xFFFFFFFF, 0, 0⟩, ⟨0x0EC, 0, 0, 0xFFFFFFFF, 0, 0⟩]

/-- SYNC page: Tables 11-31 to 11-36 -/
def syncWords : List WordDef := [
  ⟨0x040, 0, 0, 0, 0, 0⟩, ⟨0x044, 0, 0, 0, 0, 0x10000⟩,
  ⟨0x048, 0xFFFFFFFF, 0, 0, 0, 0⟩, ⟨0x050, 0xFFFFFFFF, 0, 0, 0, 0⟩,
  ⟨0x054, 0xFFFFFFFF, 0, 0, 0, 0⟩, ⟨0x058, 0, 0, 0, 3, 0⟩,
  ⟨0x060, 0, 0, 0xFFFFFFFF, 0, 0⟩, ⟨0x064, 0, 0, 0xFFFFFFFF, 0, 0⟩,
  ⟨0x068, 0, 0, 0xFFFFFFFF, 0, 0⟩, ⟨0x06C, 0, 0, 0xFFFFFFFF, 0, 0⟩,
  ⟨0x070, 0, 0, 0xFFFFFFFF, 0, 0⟩, ⟨0x074, 0, 0, 0xFFFFFFFF, 0, 0⟩]

/-- REQ page: Tables 12-11 to 12-20, part 0 -/
def reqWords0 : List WordDef := [
  ⟨0x040, 0, 0, 0, 0, 0⟩, ⟨0x044, 0, 0, 0, 1, 0⟩,
  ⟨0x048, 0xFFFF, 0, 0, 0, 0⟩, ⟨0x04C, 0x3FF, 0, 0, 0, 0⟩,
  ⟨0x050, 0xF0F0F, 0, 0, 0, 0x3040F⟩, ⟨0x054, 0xFFFFFFFF, 0, 0, 0, 0⟩,
  ⟨0x058, 0, 0, 0, 0, 0⟩, ⟨0x05C, 0, 0, 0, 0, 0⟩,
  ⟨0x060, 0, 0, 0, 0, 0x10000⟩, ⟨0x064, 0, 0, 0, 0, 0⟩,
  ⟨0x068, 0, 0, 0, 0, 0⟩, ⟨0x070, 0, 0, 0, 0, 0⟩,
  ⟨0x074, 0, 0, 0, 0, 0⟩, ⟨0x078, 0, 0, 0, 0, 0⟩,
  ⟨0x07C, 0, 0, 0, 0, 0⟩, ⟨0x080, 0, 0, 0xFFFFFFFF, 0, 0⟩,
  ⟨0x084, 0, 0, 0xFFFFFFFF, 0, 0⟩, ⟨0x088, 0, 0, 0xFFFFFFFF, 0, 0⟩,
  ⟨0x08C, 0, 0, 0xFFFFFFFF, 0, 0⟩, ⟨0x090, 0, 0, 0xFFFFFFFF, 0, 0⟩,
  ⟨0x094, 0, 0, 0xFFFFFFFF, 0, 0⟩, ⟨0x098, 0, 0, 0xFFFFFFFF, 0, 0⟩,
  ⟨0x09C, 0, 0, 0xFFFFFFFF, 0, 0⟩, ⟨0x0A0, 0, 0, 0xFFFFFFFF, 0, 0⟩]

/-- REQ page: Tables 12-11 to 12-20, part 1 -/
def reqWords1 : List WordDef := [
  ⟨0x0A4, 0, 0, 0xFFFFFFFF, 0, 0⟩, ⟨0x0A8, 0, 0, 0xFFFFFFFF, 0, 0⟩,
  ⟨0x0AC, 0, 0, 0xFFFFFFFF, 0, 0⟩, ⟨0x0B0, 0, 0, 0xFFFFFFFF, 0, 0⟩,
  ⟨0x100, 0, 0, 0, 0, 0⟩, ⟨0x104, 0, 0, 0, 0, 0⟩,
  ⟨0x108, 0, 0, 0, 0, 0⟩, ⟨0x10C, 0, 0, 0, 0, 0⟩,
  ⟨0x110, 0, 0, 0, 0, 0⟩, ⟨0x114, 0, 0, 0, 0, 0⟩,
  ⟨0x118, 0, 0, 0, 0, 0⟩, ⟨0x11C, 0, 0, 0, 0, 0⟩,
  ⟨0x120, 0, 0, 0, 0, 0⟩, ⟨0x124, 0, 0, 0, 0, 0⟩,
  ⟨0x128, 0, 0, 0, 0, 0⟩, ⟨0x12C, 0, 0, 0, 0, 0⟩,
  ⟨0x130, 0, 0, 0, 0, 0⟩, ⟨0x134, 0, 0, 0, 0, 0⟩,
  ⟨0x138, 0, 0, 0, 0, 0⟩, ⟨0x13C, 0, 0, 0, 0, 0⟩,
  ⟨0x140, 0, 0, 0, 0, 0⟩, ⟨0x144, 0, 0, 0, 0, 0⟩,
  ⟨0x148, 0, 0, 0, 0, 0⟩, ⟨0x14C, 0, 0, 0, 0, 0⟩]

/-- REQ page: Tables 12-11 to 12-20, part 2 -/
def reqWords2 : List WordDef := [
  ⟨0x150, 0, 0, 0, 0, 0⟩, ⟨0x154, 0, 0, 0, 0, 0⟩,
  ⟨0x158, 0, 0, 0, 0, 0⟩, ⟨0x15C, 0, 0, 0, 0, 0⟩,
  ⟨0x160, 0, 0, 0, 0, 0⟩, ⟨0x164, 0, 0, 0, 0, 0⟩,
  ⟨0x168, 0, 0, 0, 0, 0⟩, ⟨0x16C, 0, 0, 0, 0, 0⟩,
  ⟨0x170, 0, 0, 0, 0, 0⟩, ⟨0x174, 0, 0, 0, 0, 0⟩,
  ⟨0x178, 0, 0, 0, 0, 0⟩, ⟨0x17C, 0, 0, 0, 0, 0⟩]

/-- KVP page: Tables 07-16 to 07-29 -/
def kvpWords : List WordDef := [
  ⟨0x040, 0, 0, 0, 0, 0⟩, ⟨0x044, 1, 0, 0, 2, 0⟩,
  ⟨0x048, 0xFFFFFFFF, 0, 0, 0, 0⟩, ⟨0x04C, 0xFFFFFFFF, 0, 0, 0, 0⟩,
  ⟨0x050, 0xFFFFFF, 0, 0, 0, 0⟩, ⟨0x054, 0xFFFFFF, 0, 0, 0, 0⟩,
  ⟨0x058, 0xFFFFFF, 0, 0, 0, 0⟩, ⟨0x05C, 0x80000007, 0, 0, 0, 0⟩,
  ⟨0x060, 0, 0, 0, 0, 0⟩, ⟨0x064, 0, 0, 0, 0, 0⟩,
  ⟨0x068, 0, 0, 0, 0, 0⟩, ⟨0x06C, 0, 0, 0, 0, 0⟩,
  ⟨0x070, 0, 0, 0xFFFFFFFF, 0, 0⟩, ⟨0x074, 0, 0, 0xFFFFFFFF, 0, 0⟩,
  ⟨0x078, 0, 0, 0xFFFFFFFF, 0, 0⟩, ⟨0x07C, 0, 0, 0xFFFFFFFF, 0, 0⟩,
  ⟨0x080, 0, 0, 0xFFFFFFFF, 0, 0⟩, ⟨0x084, 0, 0, 0xFFFFFFFF, 0, 0⟩,
  ⟨0x088, 0, 0, 0xFFFFFFFF, 0, 0⟩, ⟨0x08C, 0, 0, 0xFFFFFFFF, 0, 0⟩,
  ⟨0x090, 0, 0, 0, 0, 0⟩]

/-- WGT page: Tables 13-9 to 13-16 -/
def wgtWords : List WordDef := [
  ⟨0x040, 0, 0, 0, 0, 0⟩, ⟨0x044, 0xFFFF, 0, 0, 0, 0xFA⟩,
  ⟨0x048, 0, 0, 0, 0, 0⟩, ⟨0x04C, 0xFFF, 0, 0, 0, 0⟩,
  ⟨0x050, 0, 0, 0, 0, 0⟩, ⟨0x054, 0, 0, 0, 0, 0⟩,
  ⟨0x058, 0, 0, 0, 0, 0⟩, ⟨0x05C, 0, 0, 0, 0, 0⟩,
  ⟨0x060, 0, 0, 0xFFFFFFFF, 0, 0⟩, ⟨0x064, 0, 0, 0xFFFFFFFF, 0, 0⟩,
  ⟨0x068, 0, 0, 0xFFFFFFFF, 0, 0⟩, ⟨0x06C, 0, 0, 0xFFFFFFFF, 0, 0⟩,
  ⟨0x070, 0, 0, 0xFFFFFFFF, 0, 0⟩, ⟨0x074, 0, 0, 0xFFFFFFFF, 0, 0⟩,
  ⟨0x078, 0, 0, 0xFFFFFFFF, 0, 0⟩, ⟨0x07C, 0, 0, 0xFFFFFFFF, 0, 0⟩]

/-- MEM page: Tables 14-15 to 14-23 -/
def memWords : List WordDef := [
  ⟨0x040, 0, 0, 0, 0, 0⟩, ⟨0x044, 0x80FF00FF, 0, 0, 0, 0x80100018⟩,
  ⟨0x048, 0, 0, 0, 0, 0⟩, ⟨0x04C, 0, 0, 0, 0, 0⟩,
  ⟨0x050, 0, 0, 0, 0, 0⟩, ⟨0x054, 0, 0, 0, 0, 0⟩,
  ⟨0x058, 0, 0, 0, 0, 0⟩, ⟨0x05C, 0, 0, 0, 0, 0⟩,
  ⟨0x060, 0, 0, 0, 0xC0000000, 0⟩, ⟨0x068, 0xFFFFFFFF, 0, 0, 0, 0⟩,
  ⟨0x06C, 0xFFFFFFFF, 0, 0, 0, 0⟩, ⟨0x070, 0, 0, 0, 0, 0⟩,
  ⟨0x080, 0, 0, 0xFFFFFFFF, 0, 0⟩, ⟨0x084, 0, 0, 0xFFFFFFFF, 0, 0⟩,
  ⟨0x088, 0, 0, 0xFFFFFFFF, 0, 0⟩, ⟨0x08C, 0, 0, 0xFFFFFFFF, 0, 0⟩,
  ⟨0x090, 0, 0, 0xFFFFFFFF, 0, 0⟩, ⟨0x094, 0, 0, 0xFFFFFFFF, 0, 0⟩,
  ⟨0x098, 0, 0, 0xFFFFFFFF, 0, 0⟩, ⟨0x09C, 0, 0, 0xFFFFFFFF, 0, 0⟩]

/-- SCRB page: Tables 14-25 to 14-29 -/
def scrbWords : List WordDef := [
  ⟨0x040, 0, 0, 0, 0, 0⟩, ⟨0x048, 0, 0, 0, 0, 0⟩,
  ⟨0x04C, 0, 0, 0, 0, 0⟩, ⟨0x050, 0, 0, 0, 0, 0⟩,
  ⟨0x058, 0, 0, 0, 0, 0⟩, ⟨0x05C, 0, 0, 0, 0, 0⟩,
  ⟨0x060, 0, 0, 0xFFFFFFFF, 0, 0⟩, ⟨0x064, 0, 0, 0xFFFFFFFF, 0, 0⟩,
  ⟨0x068, 0, 0, 0xFFFFFFFF, 0, 0⟩, ⟨0x06C, 0, 0, 0xFFFFFFFF, 0, 0⟩,
  ⟨0x070, 0, 0, 0xFFFFFFFF, 0, 0⟩, ⟨0x074, 0, 0, 0xFFFFFFFF, 0, 0⟩]

/-- ATT page: Tables 07-8 to 07-15 -/
def attWords : List WordDef := [
  ⟨0x040, 0, 0, 0, 0, 0⟩, ⟨0x044, 0, 0, 0, 0, 0⟩,
  ⟨0x048, 0, 0, 0, 0, 0⟩, ⟨0x050, 0, 0, 0, 0, 0⟩,
  ⟨0x054, 0, 0, 0, 0, 0⟩, ⟨0x058, 0, 0, 0, 0, 0⟩,
  ⟨0x05C, 0, 0, 0, 0, 0⟩, ⟨0x060, 0, 0, 0xFFFFFFFF, 0, 0⟩,
  ⟨0x064, 0, 0, 0xFFFFFFFF, 0, 0⟩, ⟨0x068, 0, 0, 0xFFFFFFFF, 0, 0⟩,
  ⟨0x06C, 0, 0, 0xFFFFFFFF, 0, 0⟩, ⟨0x070, 0, 0, 0xFFFFFFFF, 0, 0⟩,
  ⟨0x074, 0, 0, 0xFFFFFFFF, 0, 0⟩, ⟨0x078, 0, 0, 0, 0, 0⟩]

/-- GRAD page: Tables 08-5 to 08-8 -/
def gradWords : List WordDef := [
  ⟨0x040, 0, 0, 0, 0, 0⟩, ⟨0x044, 0, 0, 0, 0, 0⟩,
  ⟨0x048, 0, 0, 0, 0, 0⟩, ⟨0x060, 0, 0, 0xFFFFFFFF, 0, 0⟩,
  ⟨0x064, 0, 0, 0xFFFFFFFF, 0, 0⟩, ⟨0x068, 0, 0, 0xFFFFFFFF, 0, 0⟩,
  ⟨0x06C, 0, 0, 0xFFFFFFFF, 0, 0⟩, ⟨0x070, 0, 0, 0xFFFFFFFF, 0, 0⟩,
  ⟨0x074, 0, 0, 0xFFFFFFFF, 0, 0⟩]

/-- PORT page: Tables 15-9 to 15-14 -/
def portWords : List WordDef := [
  ⟨0x040, 0, 0, 0, 0, 0⟩, ⟨0x044, 0xC000FFFF, 0, 0, 0x38000000, 0x800088B5⟩,
  ⟨0x048, 0, 0, 0, 0, 0⟩, ⟨0x04C, 0, 0, 0, 0, 0⟩,
  ⟨0x050, 0, 0, 0, 0, 0⟩, ⟨0x054, 0, 0, 0, 0, 0⟩,
  ⟨0x058, 0, 0, 0, 0, 0⟩, ⟨0x05C, 0, 0, 0, 0, 0⟩,
  ⟨0x060, 0, 0, 0, 0, 0⟩, ⟨0x064, 0, 0, 0, 0, 0⟩,
  ⟨0x068, 0, 0, 0, 0, 0⟩, ⟨0x070, 0, 0, 0, 0, 0⟩,
  ⟨0x074, 0, 0, 0, 0, 0⟩, ⟨0x078, 0, 0, 0, 0, 0⟩,
  ⟨0x07C, 0, 0, 0, 0, 0⟩, ⟨0x080, 0, 0, 0xFFFFFFFF, 0, 0⟩,
  ⟨0x084, 0, 0, 0xFFFFFFFF, 0, 0⟩, ⟨0x088, 0, 0, 0xFFFFFFFF, 0, 0⟩,
  ⟨0x08C, 0, 0, 0xFFFFFFFF, 0, 0⟩, ⟨0x090, 0, 0, 0xFFFFFFFF, 0, 0⟩,
  ⟨0x094, 0, 0, 0xFFFFFFFF, 0, 0⟩, ⟨0x098, 0, 0, 0xFFFFFFFF, 0, 0⟩,
  ⟨0x09C, 0, 0, 0xFFFFFFFF, 0, 0⟩]

/-- OPT page: Tables 15-15 to 15-20 -/
def optWords : List WordDef := [
  ⟨0x040, 0, 0, 0, 0, 0⟩, ⟨0x044, 0, 0, 0, 0, 0⟩,
  ⟨0x048, 0, 0, 0, 0, 0⟩, ⟨0x04C, 0xF, 0, 0, 0, 0⟩,
  ⟨0x050, 0, 0, 0, 0, 0⟩, ⟨0x054, 0, 0, 0, 0, 0⟩,
  ⟨0x060, 0, 0, 0xFFFFFFFF, 0, 0⟩, ⟨0x064, 0, 0, 0xFFFFFFFF, 0, 0⟩]

/-- ARR page: Tables 04-6 to 04-17 -/
def arrWords : List WordDef := [
  ⟨0x040, 0, 0, 0, 0, 0⟩, ⟨0x044, 0, 0, 0, 0, 0⟩,
  ⟨0x048, 0, 0, 0, 0, 0⟩, ⟨0x04C, 0, 0, 0, 0, 0⟩,
  ⟨0x050, 0x1F, 0, 0, 0, 0x18⟩, ⟨0x054, 0, 0, 0, 1, 0⟩,
  ⟨0x058, 0, 0, 0, 0, 0⟩, ⟨0x05C, 0, 0, 0, 0, 0⟩,
  ⟨0x060, 0, 0, 0xFFFFFFFF, 0, 0⟩, ⟨0x064, 0, 0, 0xFFFFFFFF, 0, 0⟩,
  ⟨0x068, 0, 0, 0xFFFFFFFF, 0, 0⟩, ⟨0x06C, 0, 0, 0xFFFFFFFF, 0, 0⟩,
  ⟨0x070, 0, 0, 0xFFFFFFFF, 0, 0⟩, ⟨0x074, 0, 0, 0xFFFFFFFF, 0, 0⟩,
  ⟨0x078, 0, 0, 0xFFFFFFFF, 0, 0⟩, ⟨0x07C, 0, 0, 0, 0, 0⟩,
  ⟨0x080, 0, 0, 0xFFFFFFFF, 0, 0⟩, ⟨0x084, 0, 0, 0xFFFFFFFF, 0, 0⟩]

/-- SHIM page: Tables 05-8 to 05-14 -/
def shimWords : List WordDef := [
  ⟨0x040, 0, 0, 0, 0, 0⟩, ⟨0x044, 0, 0, 0, 0, 0⟩,
  ⟨0x048, 0x1FFFFF, 0, 0, 0, 0xA0000⟩, ⟨0x04C, 0, 0, 0, 0, 0⟩,
  ⟨0x050, 0x1FFF, 0, 0, 0, 0⟩, ⟨0x054, 0, 0, 0, 0, 0⟩,
  ⟨0x060, 0, 0, 0xFFFFFFFF, 0, 0⟩, ⟨0x064, 0, 0, 0xFFFFFFFF, 0, 0⟩,
  ⟨0x068, 0, 0, 0xFFFFFFFF, 0, 0⟩, ⟨0x06C, 0, 0, 0xFFFFFFFF, 0, 0⟩,
  ⟨0x070, 0, 0, 0xFFFFFFFF, 0, 0⟩, ⟨0x074, 0, 0, 0xFFFFFFFF, 0, 0⟩,
  ⟨0x078, 0, 0, 0xFFFFFFFF, 0, 0⟩, ⟨0x07C, 0, 0, 0xFFFFFFFF, 0, 0⟩,
  ⟨0x080, 0, 0, 0xFFFFFFFF, 0, 0⟩, ⟨0x084, 0, 0, 0xFFFFFFFF, 0, 0⟩,
  ⟨0x088, 0, 0, 0xFFFFFFFF, 0, 0⟩]

/-- LEDG page: Tables 06-7 to 06-12 -/
def ledgWords : List WordDef := [
  ⟨0x040, 0, 0, 0, 0, 0⟩, ⟨0x044, 0, 0x1FFFF, 0, 0, 0⟩,
  ⟨0x048, 0, 0x1FFFF, 0, 0, 0⟩, ⟨0x04C, 0xF1F, 0, 0, 0, 0⟩,
  ⟨0x050, 0, 0, 0, 0, 0⟩, ⟨0x060, 0, 0, 0xFFFFFFFF, 0, 0⟩,
  ⟨0x064, 0, 0, 0xFFFFFFFF, 0, 0⟩, ⟨0x068, 0, 0, 0xFFFFFFFF, 0, 0⟩,
  ⟨0x06C, 0, 0, 0xFFFFFFFF, 0, 0⟩, ⟨0x070, 0, 0, 0xFFFFFFFF, 0, 0⟩,
  ⟨0x074, 0, 0, 0xFFFFFFFF, 0, 0⟩, ⟨0x078, 0, 0, 0xFFFFFFFF, 0, 0⟩,
  ⟨0x07C, 0, 0, 0xFFFFFFFF, 0, 0⟩, ⟨0x080, 0, 0, 0xFFFFFFFF, 0, 0⟩]

/-- CAL page: Tables 09-5 to 09-15, part 0 -/
def calWords0 : List WordDef := [
  ⟨0x040, 0, 0, 0, 0, 0⟩, ⟨0x044, 0, 0, 0, 1, 0⟩,
  ⟨0x048, 0x3FF1F0F, 0, 0, 0, 0x3D00806⟩, ⟨0x04C, 0, 0, 0, 0, 0⟩,
  ⟨0x050, 0, 0, 0, 0, 0⟩, ⟨0x054, 0, 0, 0, 0, 0⟩,
  ⟨0x058, 0x1FFF, 0, 0, 0, 0⟩, ⟨0x05C, 0, 0, 0, 0, 0⟩,
  ⟨0x060, 0, 0, 0, 0, 0⟩, ⟨0x064, 0, 0, 0, 0, 0⟩,
  ⟨0x068, 0, 0, 0, 0, 0⟩, ⟨0x06C, 0, 0, 0, 0, 0⟩,
  ⟨0x070, 0, 0, 0, 0, 0⟩, ⟨0x074, 0, 0, 0, 0, 0⟩,
  ⟨0x078, 0, 0, 0, 0, 0⟩, ⟨0x07C, 0, 0, 0, 0, 0⟩,
  ⟨0x080, 0, 0, 0, 0, 0⟩, ⟨0x084, 0, 0, 0, 0, 0⟩,
  ⟨0x088, 0, 0, 0, 0, 0⟩, ⟨0x08C, 0, 0, 0, 0, 0⟩,
  ⟨0x090, 0, 0, 0, 0, 0⟩, ⟨0x094, 0, 0, 0, 0, 0⟩,
  ⟨0x098, 0, 0, 0, 0, 0⟩, ⟨0x09C, 0, 0, 0, 0, 0⟩]

/-- CAL page: Tables 09-5 to 09-15, part 1 -/
def calWords1 : List WordDef := [
  ⟨0x0A0, 0, 0, 0xFFFFFFFF, 0, 0⟩, ⟨0x0A4, 0, 0, 0xFFFFFFFF, 0, 0⟩,
  ⟨0x0A8, 0, 0, 0xFFFFFFFF, 0, 0⟩, ⟨0x0AC, 0, 0, 0xFFFFFFFF, 0, 0⟩,
  ⟨0x0B0, 0, 0, 0xFFFFFFFF, 0, 0⟩, ⟨0x0B4, 0, 0, 0xFFFFFFFF, 0, 0⟩,
  ⟨0x0B8, 0, 0, 0xFFFFFFFF, 0, 0⟩, ⟨0x0BC, 0, 0, 0xFFFFFFFF, 0, 0⟩]

/-- The words of a block page after the header. -/
def Block.words : Block → List WordDef
  | .dev => devWords
  | .pres => presWords
  | .mc => mcWords
  | .sec => secWords
  | .log => logWords0 ++ logWords1
  | .snap => snapWords
  | .pwr => pwrWords
  | .thm => thmWords
  | .fab => fabWords0 ++ fabWords1 ++ fabWords2 ++ fabWords3
  | .plan => planWords
  | .que => queWords0 ++ queWords1
  | .sync => syncWords
  | .req => reqWords0 ++ reqWords1 ++ reqWords2
  | .kvp => kvpWords
  | .wgt => wgtWords
  | .mem => memWords
  | .scrb => scrbWords
  | .att => attWords
  | .grad => gradWords
  | .port => portWords
  | .opt => optWords
  | .bent => []
  | .arr => arrWords
  | .shim => shimWords
  | .ledg => ledgWords
  | .cal => calWords0 ++ calWords1

/-- The row of offset `off` (a multiple of 4) in a list of rows. -/
def findWord : List WordDef → Nat → Option WordDef
  | [], _ => none
  | d :: ds, off => if d.off = off then some d else findWord ds off

/-- The register word at offset `off` of a page of block `b`: header (R50) or the block's own. -/
def regWord (b : Block) (off : Nat) : Option WordDef :=
  if off < 0x40 then findWord headerWords off else findWord b.words off

/-- The value of a register word at the end of power-on reset (R16). -/
def regReset (b : Block) (off : Nat) : BitVec 32 :=
  match regWord b off with
  | some d => BitVec.ofNat 32 d.reset
  | none => 0

/-- Is the register word at `off` copied to a snapshot shadow at `off + 0x800`? (R139, R172, R195, R236, R238, R266, R292,
R321, R356 to R358, R387, R409, R439, R441, R469, R470, R487, R488.) -/
def shadowed : Block → Nat → Bool
  | .arr, o => 0x58 ≤ o && o < 0x88
  | .shim, o => o == 0x44 || (0x60 ≤ o && o ≤ 0x88)
  | .ledg, o => o == 0x40 || (0x60 ≤ o && o ≤ 0x80)
  | .att, o => o == 0x40 || (0x50 ≤ o && o ≤ 0x74)
  | .kvp, o => o == 0x40 || (0x60 ≤ o && o ≤ 0x8C)
  | .grad, o => (0x40 ≤ o && o ≤ 0x48) || (0x60 ≤ o && o ≤ 0x74)
  | .cal, o => o == 0x40 || (0x60 ≤ o && o ≤ 0xBC)
  | .fab, o => o == 0x48 || o == 0x4C || (0x180 ≤ o && o ≤ 0x19C)
  | .plan, o => 0x80 ≤ o && o ≤ 0x9C
  | .que, o => (0xC0 ≤ o && o ≤ 0xC8) || (0xE0 ≤ o && o ≤ 0xEC)
  | .sync, o => o == 0x40 || o == 0x44 || (0x60 ≤ o && o ≤ 0x74)
  | .req, o => 0x60 ≤ o && o ≤ 0xB0
  | .wgt, o => o == 0x40 || (0x58 ≤ o && o ≤ 0x7C)
  | .mem, o => o == 0x40 || o == 0x58 || (0x80 ≤ o && o ≤ 0x9C)
  | .scrb, o => 0x60 ≤ o && o ≤ 0x74
  | .port, o => 0x50 ≤ o && o ≤ 0x9C
  | .opt, o => o == 0x40 || o == 0x60 || o == 0x64
  | .pwr, o => 0x80 ≤ o && o ≤ 0x8C
  | .thm, o => 0x80 ≤ o && o ≤ 0x8C
  | .dev, _ | .pres, _ | .mc, _ | .sec, _ | .log, _ | .snap, _ | .bent, _ => false

end Sys2Proof
end

