-- ==== Sys2Proof/Machine/State.lean ====
section
/-!
DEFINITION. Everything the spec gives the package, as plain data: one structure per part of the package, and State.
-/

namespace Sys2Proof.Machine

/-- Reasons a step can stop with a fault. The spec gives every command of its table an effect, so no meaning of this model
raises one. `neverRaised` is raised by nobody (safe: it can hide no behaviour). -/
inductive Fault where
  | neverRaised
  deriving DecidableEq, Repr

/-- Reasons a step refuses a command. `notModelled` is raised by `exec` alone, for a command that has no meaning yet (safe:
nothing is claimed of it). -/
inductive Refusal where
  | notModelled (mnemonic : String)
  deriving DecidableEq, Repr

/-! ### Handles (R57 to R61) -/

/-- One handle slot: its generation, whether an object holds it, and the tenant that holds or last held it. -/
structure Slot where
  gen : Nat
  live : Bool
  owner : Option Nat
  deriving DecidableEq, Repr

/-- A slot as it is at reset: generation 1, never held (R58). -/
def Slot.unused : Slot := ⟨1, false, none⟩

/-- The slots of one object type: the slots that differ from the reset value, the lowest never-used index, and the freed
slots, least recently freed first (R58). -/
structure SlotTable where
  slots : Sparse Slot
  fresh : Nat
  freed : List Nat
  deriving DecidableEq, Repr

/-- The slot tables of the seven object types of Table 02-25. -/
structure Handles where
  ctx : SlotTable
  que : SlotTable
  sync : SlotTable
  req : SlotTable
  plan : SlotTable
  gen : SlotTable
  chan : SlotTable
  deriving DecidableEq, Repr

/-! ### Outputs: what the package has sent to the world -/

/-- An MSI-X message: a write of `data` to `addr`, sent by entry `entry` of die `die` (R64). -/
structure MsixMsg where
  die : Nat
  entry : Nat
  addr : Nat
  data : Nat
  deriving DecidableEq, Repr

/-- What the host or the monitor got back from its last access (Table 02-6). -/
inductive HostResp where
  | none
  | data (value : Nat)
  | poisoned
  | loadFault
  | storeFault
  | written
  | ignored
  | dropped
  deriving DecidableEq, Repr

/-- One reply of the monitor: the numbers printed, the final line's code, 0 for OK (R503), and the PAGE_OWNER tag of the page that
the reply is about (R53), 0 for one about none. -/
structure MonReply where
  values : List Nat
  code : Nat
  owner : Nat
  deriving DecidableEq, Repr

/-- One answer of the memory-device mailbox (Table 02-1): the command's opcode class, Unsupported or not, and its values. -/
structure MboxReply where
  die : Nat
  kind : Nat
  values : List Nat
  deriving DecidableEq, Repr

structure Outputs where
  msix : List MsixMsg
  host : HostResp
  mon : List MonReply
  mbox : List MboxReply
  deriving DecidableEq, Repr

/-! ### Memory (chapters 01 and 14) -/

/-- T1: data bytes; the four syndromes of R415 of each codeword, S0 in bits [7:0] (key: address / 64; they say how the stored
check bytes differ from those the stored data would have, 0 when they agree); the scribes of the 4 KiB blocks (key: address /
4096); and the controllers' own state. -/
structure Mem where
  t1 : List Host.Cell
  chk : Sparse W32
  scribe : Sparse W64
  /-- recent-correction table of each stack, newest first (R420) -/
  recent : Sparse (List Nat)
  /-- poison list of each die (R431) and its overflow bit -/
  poison : Sparse (List Nat)
  poisonOver : Sparse Bool
  /-- blocks of each stack whose map address leads to a spare (R423) -/
  mapped : Sparse (List Nat)
  /-- spares of each stack spent, faulty ones included -/
  spares : Sparse Nat
  /-- map-outs whose copy is in progress (R423) -/
  copying : List Nat
  /-- stacks in a region scrub, with the region's base (R421) -/
  regionScrub : Sparse (Option Nat)
  /-- device times of the corrections of each stack in the last millisecond (R421) -/
  bursts : Sparse (List Nat)
  deriving DecidableEq, Repr

/-! ### Log flash (Tables 17-2 and 18-3) -/

structure LogRec where
  seq : Nat
  time : Nat
  pageId : Nat
  code : Nat
  severity : Nat
  context : Option Nat
  detail : Nat
  kind : Nat
  addr : Nat
  data : Nat
  deriving DecidableEq, Repr

/-- The event log: the next sequence number, the records awaiting the flash (oldest first) and the ring (oldest first). -/
structure EventLog where
  nextSeq : Nat
  buffer : List LogRec
  ring : List LogRec
  wrapped : Bool
  deriving DecidableEq, Repr

/-! ### Synchronisation objects, queues and descriptors (chapter 11) -/

/-- A queue (R340, R341). `head` and `tail` are free-running 32-bit ring indexes: for a submission queue the consumed head
and the doorbell's tail, for a completion queue the software's head and the written tail. -/
structure Queue where
  completion : Bool
  tenant : Nat
  base : Nat
  q : Nat
  home : Nat
  cq : Nat
  msix : Nat
  ctrl : Nat
  head : Nat
  tail : Nat
  reserved : Nat
  stopping : Bool
  /-- the head's consumption has been counted as delayed by R347 -/
  delayed : Bool
  /-- the head's wait_before has been found to hold (R352) -/
  met : Bool
  /-- the SYNC_WAIT at the head has been evaluated and did not hold (R354) -/
  waiting : Bool
  /-- the outcome fixed for the SYNC_WAIT at the head, awaiting its consumption (R346) -/
  outcome : Option Nat
  deriving DecidableEq, Repr

/-- Where a consumed descriptor stands. -/
inductive FPhase where
  | started
  | waiting
  | done
  deriving DecidableEq, Repr

/-- A descriptor in flight (R350): the queue and free-running index it came from, that queue's handle, completion queue and
home die, its 64 bytes, and its outcome. -/
structure Flight where
  q : Nat
  ix : Nat
  tenant : Nat
  handle : Nat
  cq : Nat
  home : Nat
  desc : Bytes
  phase : FPhase
  status : Nat
  detail : Nat
  result : Nat
  deriving DecidableEq, Repr

/-- The queue engines: the queues, the flights, the head queues stopped for want of slots (R350), the round-robin position
of R351 and the tenants' admin settings (Tables 11-25, 11-26, 11-37). -/
structure QueSt where
  queues : Sparse (Option Queue)
  flights : List Flight
  stopped : List Nat
  lastTenant : Nat
  lastQueue : Sparse Nat
  adminBase : Sparse Nat
  adminMsix : Sparse Nat
  adminCtrl : Sparse Nat
  adminEn : Sparse Bool
  deriving DecidableEq, Repr

/-! ### Arrays and shim units (chapters 04 and 05) -/

/-- One cell plane with the banks that swap with it (R106, R118, R120, R153): its 576 × 576 cells of five bits, check rows and
check columns among them (key: 576 × row + column; sign in bit 4), its load tag, its FP16 column scales, its residual list as
(row, column, residual), and the flags that passes over it carry on: those of the blocks it was read from (R97), and bound
exceeded for an invalid column scale (R72) or one out of range (R80). -/
structure Plane where
  cells : Sparse Nat
  tag : Nat
  scales : Sparse Nat
  resid : List (Nat × Nat × Int)
  flags : Nat
  deriving DecidableEq, Repr

/-- Where a plane image is encrypted as part of a shard (R402): the shard key, shard and chunk index, and the offset of the
image in the chunk divided by 16. -/
structure Crypt where
  key : Bytes
  shard : Nat
  chunk : Nat
  block : Nat
  deriving DecidableEq, Repr

/-- A plane load that has been requested (R120): its tag, the T1 address of the plane image, the residual count (the list follows
the image), how it is encrypted, the code it is refused with (0 none), whether
its plane-table entry was poisoned, the context it acts for, and the flight to complete with it. -/
structure LoadReq where
  tag : Nat
  addr : Nat
  resid : Nat
  crypt : Option Crypt
  refuse : Nat
  poison : Bool
  ctx : Nat
  flight : Option (Nat × Nat)
  /-- a tile of an array prefill, with its request's entry -/
  kv : Option (KvTile × Nat)
  deriving DecidableEq, Repr

/-- Where a pass stands in the stages of Table 05-1. -/
inductive Stage where
  | quantised
  | driven
  | checked
  | settled
  deriving DecidableEq, Repr

/-- What a pass is: a plan's pass (its repeat included), sub-pass `i` of the split `key` of its entry, or a second pass. -/
inductive Role where
  | normal
  | sub (i key : Nat)
  | second
  deriving DecidableEq, Repr

/-- What Table 05-5 lets a settled pass write at the end of beat n + 2: nothing, the full partial, or the partial with a_j = 0
on the clipped lines. -/
inductive Wr where
  | nothing
  | full
  | masked
  deriving DecidableEq, Repr

/-- A pass of an array. `word` is its array operation word (Table 11-4), `slot` the step slot of its last beat, `ord` the
array's pass count before it and `ord2` that of the partner of a wide pass; `q` are the driven cell values, `outl` the corrected outliers as (index, residual), `second` the
second-pass vector with its exponent `j`; `codes` and `nodes` are the ADC codes and check-node codes of each nibble pass, in
the order hh, hl, lh, ll for a wide one; `plane`, `bank` and `plane2`, `bank2` are the plane and coefficient bank it is driven
on, of its array and of the partner of a wide pass (R122). `closes` is how many claims its partial ends (R182). -/
structure Pass where
  id : Nat
  word : Nat
  slot : Int
  ord : Nat
  ord2 : Nat
  ctx : Nat
  role : Role
  isRepeat : Bool
  entry : Option Nat
  stage : Stage
  zero : Bool
  plane : Nat
  bank : Nat
  plane2 : Nat
  bank2 : Nat
  /-- input scale in cell units, sm·2^se exactly -/
  sm : Nat
  se : Int
  q : List Int
  outl : List (Nat × Int)
  second : List Int
  j : Nat
  flags : Nat
  epoch : Nat
  codes : List (List Int)
  nodes : List (List Int)
  missed : List Nat
  mask : List Bool
  wr : Wr
  closes : Nat
  /-- the query row whose scores the pass makes (R215) -/
  score : Option Nat
  /-- passes of the miss windows of its two arrays when it was driven (Table 04-10) -/
  window : Nat
  window2 : Nat
  deriving DecidableEq, Repr

/-- The scores of a query row on a tile, as far as the passes have made them, with the marks of their passes. -/
structure ScoreRow where
  vals : List Nat
  flags : Nat
  deriving DecidableEq, Repr

/-- A query row of an array prefill (R215): running maximum (none for −∞), running sum, and the latest rescale factor. -/
structure SoftRow where
  m : Option Nat
  l : Nat
  c : Nat
  deriving DecidableEq, Repr

/-- A split under way (R116): the pass it belongs to with its mask of clipped lines, the sub-passes still to come, the sums of
a_j so far in 1/16 product unit, the flags its sub-passes raised, and the claims it ends. -/
structure Split where
  key : Nat
  pass : Pass
  left : Nat
  acc : List Int
  flags : Nat
  closes : Nat
  deriving DecidableEq, Repr

/-- An entry of the event store (R162): the granted claims that are not complete, and the splits under way. -/
structure StoreEnt where
  id : Nat
  claims : Nat
  splits : List Split
  deriving DecidableEq, Repr

/-- A claimed reserve beat: its step slot and the pass it drives; none for the second beat of a wide pass and for the beats
that the partner array gives one. -/
structure Claim where
  slot : Nat
  pass : Option Pass
  deriving DecidableEq, Repr

/-- An escalation window (R168): the pass count at its start, its log2 length, the demands in it, and whether it has raised an
escalation. -/
structure EscWin where
  start : Nat
  w : Nat
  count : Nat
  raised : Bool
  deriving DecidableEq, Repr

/-- A calibration window of one line (R268): samples and running sums, exact, in 1/256 squared product units, and the pass of the
array that gave its latest sample. -/
structure CalWin where
  n : Nat
  w : Nat
  k : Nat
  coef : W32
  sy : Int
  syy : Int
  se : Int
  sey : Int
  see : Int
  beat : Int
  deriving DecidableEq, Repr

/-- An update set of live calibration (R281): the pass of the array in whose beat its windows closed, its entries still to be
written, in ascending order, and what the staged bank held where an entry of it has been written. -/
structure CalSet where
  beat : Int
  todo : List (Nat × W32)
  old : List (Nat × W32)
  deriving DecidableEq, Repr

/-- Calibration state of one array (R268 to R281): windows by entry (column side 0 to 543, row side 544 to 1,087), the two
cursors, the LFSR, the figures of each line in milli-codes as residual and noise, the update sets waiting for the staged
bank, the read-port slots that sampling takes in a beat, by step slot of the beat (R278), and the marks of R288 and R290. -/
structure CalArr where
  wins : Sparse (Option CalWin)
  cursorC : Nat
  cursorR : Nat
  lfsr : Nat
  resid : Sparse Nat
  noise : Sparse Nat
  update : List CalSet
  reads : List (Int × Nat)
  stale : Bool
  isOver : Bool
  closed : Bool
  rateLog : Nat
  rateN : Nat
  rateMiss : Nat
  rateSecond : Nat
  deriving DecidableEq, Repr

/-- One array with its shim unit. -/
structure Arr where
  live : Nat
  plane0 : Plane
  plane1 : Plane
  staged : Nat
  loadError : Nat
  rows : Nat
  poisoned : Bool
  loading : Option LoadReq
  waiting : List LoadReq
  draining : Bool
  swapWaiting : Bool
  retired : Nat
  /-- misses within the miss window: (transposed, group, pass count); the passes of power-up calibration count below 0 (R134,
  R274) -/
  misses : List (Bool × Nat × Int)
  activeCoef : Nat
  coef0 : Sparse W32
  coef1 : Sparse W32
  bankState : Nat
  passes : List Pass
  nextPass : Nat
  store : List StoreEnt
  claims : List Claim
  nextEntry : Nat
  escCur : EscWin
  escPrev : EscWin
  escPending : Bool
  cal : CalArr
  /-- array prefill (R215): the scores under way and the rows' running figures, by query row -/
  scores : Sparse ScoreRow
  soft : Sparse SoftRow
  deriving DecidableEq, Repr

/-! ### Ledgers, bench and vector unit (chapter 06) -/

/-- One ledger row's accumulation state. -/
structure LRow where
  isOpen : Bool
  epoch : Nat
  passCount : Nat
  seen : List Nat
  outstanding : Nat
  flags : Nat
  limitHit : Bool
  deriving DecidableEq, Repr

/-- One bent: the 32-bit words of its bench address space (R173; key: address / 4), the rows' state (key: 32 × tile + row), the
scribe flags of its bench blocks (key: address / 4096), the ledger blocks last delivered
while open (key: 16 × tile + block; R183), the fabric slot up to which its vector unit is busy (R196, R197), the fabric slot
after that of the last word of its ledger stream that has been carried out (R178, R179), and the elements of the reduction whose
result stands at a bench word (key: address / 4; R193). -/
structure Bent where
  bench : Sparse W32
  rows : Sparse LRow
  bflags : Sparse Nat
  tent : Sparse Bool
  vecBusy : Nat
  ledgAt : Nat
  counts : Sparse Nat
  deriving DecidableEq, Repr

/-! ### KV cache and attention engines (chapter 07) -/

/-- Table 07-3: one layer group. -/
structure KvGroup where
  ring : Bool
  home : Nat
  layers : Nat
  heads : Nat
  dim : Nat
  slotBytes : Nat
  maxTokens : Nat
  dirOffset : Nat
  deriving DecidableEq, Repr

/-- Table 07-2: a context's KV record as it was read at its creation. -/
structure KvRec where
  specMax : Nat
  window : Nat
  farChannel : Nat
  farSlots : Nat
  farBase : Nat
  dirEntries : Nat
  groups : List KvGroup
  deriving DecidableEq, Repr

/-- Who holds a frame of a pool (R434): the cut-list entry and its context, the directory entry and its T1 address, what the
frame is doing (0 resident, 1 spilling out, 2 being fetched) with its far slot, and whether its request has ended. -/
structure Holder where
  req : Nat
  ctx : Nat
  entry : Nat
  addr : Nat
  kind : Nat
  far : Nat
  orphan : Bool
  deriving DecidableEq, Repr

/-- The KV pool of one frame die (R221, R233): the frames that are not free, the census registers, and the transfer engines'
state. -/
structure KvPool where
  base : Nat
  frames : Nat
  enable : Bool
  held : Sparse (Option Holder)
  free : Nat
  alloc : Nat
  transit : Nat
  far : Nat
  spilling : Bool
  censusFail : Bool
  /-- requests this die's spill engine holds, with the time from which it may take their frames (R227) -/
  holds : List (Nat × Option Nat)
  /-- prefetch queue: class (0 resumed, 1 slipped, 2 held), entry (R229) -/
  fetch : List (Nat × Nat)
  deriving DecidableEq, Repr

/-- One attention task in an engine's list (R200, R207). Rows and entries are FP32 bit patterns. -/
structure AttTask where
  req : Nat
  head : Nat
  pos : Nat
  n : Nat
  lo : Nat
  blocks : List (Nat × Nat)
  q : List (List Nat)
  dO : List (List Nat)
  lse : List Nat
  dD : List Nat
  fresh : List (List Nat × List Nat)
  flags : Nat
  out : List (List Nat)
  outLse : List Nat
  dkv : List (List Nat)
  deriving DecidableEq, Repr

/-- One attention engine: its window and task list. -/
structure AttEng where
  state : Nat
  ctx : Nat
  layer : Nat
  mode : Nat
  share : Nat
  openSlot : Nat
  length : Nat
  tasks : List AttTask
  /-- task lists given at the opening gate, by layer (R207) -/
  lists : List (Nat × List AttTask)
  /-- flits of the window's TAKE_QUERY and TAKE_FRESH words so far, and how many flits its SEND words have moved (R208) -/
  qFlits : List Flit
  fFlits : List Flit
  sent : Nat
  deriving DecidableEq, Repr

/-! ### Gradient units and calibration of a bent (chapters 08 and 09) -/

/-- One accumulator bank: FP32 cells (key: 512 × row + column), its state (0 idle, 1 accumulating, 2 flushing), target tile,
scribe flags, context, flush sequence, the learning step it belongs to, and the T1 addresses of its S tile, G tile and tile
record. -/
structure GBank where
  cells : Sparse W32
  state : Nat
  tile : Option Nat
  flags : Nat
  ctx : Nat
  seq : Nat
  step : Nat
  sAddr : Nat
  gAddr : Nat
  recAddr : Nat
  deriving DecidableEq, Repr

structure GUnit where
  active : Nat
  bank0 : GBank
  bank1 : GBank
  deriving DecidableEq, Repr

/-- Triggers of one bent (R283 to R285): bits temperature, figure and host, the tick of the latest, and the running full
recalibration (the temperature at its start and the context whose gate waits). -/
structure CalBent where
  trigger : Nat
  tick : Nat
  running : Option Int
  moved : Bool
  tCal : Int
  tNow : Int
  deriving DecidableEq, Repr

/-! ### Plans (chapter 11) -/

/-- A stream of a segment: the unit it drives and its words as (slot offset, operation) (R324). -/
structure Stream where
  kind : Nat
  die : Nat
  unit : Nat
  sub : Nat
  words : List (Nat × Nat)
  deriving DecidableEq, Repr

structure Segment where
  slots : Nat
  streams : List Stream
  deriving DecidableEq, Repr

structure Bucket where
  requests : Nat
  vectors : Nat
  head : Nat
  tail : Nat
  deriving DecidableEq, Repr

structure LayerEnt where
  single : Nat
  wide : Nat
  flags : Nat
  deriving DecidableEq, Repr

/-- Table 11-6. -/
structure GateRec where
  segment : Nat
  offset : Nat
  kind : Nat
  waits : Nat
  signal : Nat
  deadline : Nat
  terms : List (Nat × Nat)
  deriving DecidableEq, Repr

/-- Table 11-7. -/
structure SwapRec where
  segment : Nat
  offset : Nat
  kind : Nat
  die : Nat
  unit : Nat
  arrays : Nat
  tag : Nat
  deriving DecidableEq, Repr

/-- Table 11-38. -/
structure AttEnt where
  layer : Nat
  placement : Nat
  group : Nat
  qPerKv : Nat
  tMax : Nat
  scale : Nat
  statsBinding : Nat
  statsOffset : Nat
  deriving DecidableEq, Repr

structure Sched where
  buckets : List Bucket
  layers : List LayerEnt
  segs : List Segment
  gates : List GateRec
  swaps : List SwapRec
  deriving DecidableEq, Repr

/-- What the device keeps of a plan image (Table 11-1 and its sections). -/
structure PlanImg where
  strict : Bool
  learning : Bool
  optimiser : Bool
  keys : List Nat
  altCount : Nat
  variants : Nat
  dies : Nat
  bucketCount : Nat
  layerCount : Nat
  bindCount : Nat
  memBindCount : Nat
  swapDeadline : Nat
  scheds : List Sched
  att : List AttEnt
  shardMap : Bytes
  digest : Bytes
  deriving DecidableEq, Repr

/-- A loaded plan (R333): its context, role and image, its synchronisation bindings (handle, running target), its memory
bindings (base, length), the schedule chosen, the shared residues it uses as (die, mask), and the shared links it uses as (link,
residue). -/
structure PlanObj where
  ctx : Nat
  role : Nat
  img : PlanImg
  binds : List (Nat × Nat)
  membinds : List (Nat × Nat)
  sched : Nat
  shares : List (Nat × Nat)
  links : List (Nat × Nat)
  deriving DecidableEq, Repr

/-- One rostered request of the step in progress: entry index, vectors, drafts taken, whether it decodes, the output records
reserved, the frames given at the opening gate as (directory entry, first position), and the KV entries that the KV writer has
written as (layer, position). -/
structure Rostered where
  idx : Nat
  n : Nat
  drafts : Nat
  decode : Bool
  records : Nat
  frames : List (Nat × Nat)
  written : List (Nat × Nat)
  deriving DecidableEq, Repr

/-- What an optimiser plan's step has found (R253, R254): the latest SUMSQ or its merge as an FP32 pattern, non-finite elements and
flagged blocks of the scan, and columns whose scale saturated. -/
structure Scan where
  norm2 : Nat
  nonfinite : Nat
  flagged : Nat
  clamped : Nat
  deriving DecidableEq, Repr

/-- A block of T1 as it stood: its data, the syndromes of its codewords and its scribe. -/
structure BlkImg where
  blk : Nat
  data : Bytes
  chk : List W32
  scribe : W64
  deriving DecidableEq, Repr

/-- A plan run (R329, R334 to R339): the plan, its PLAN_RUN's flight, its lead die and mode, the schedule in use and the one
chosen for the next step-boundary gate, the bucket and segments of the step. -/
structure Run where
  plan : Nat
  flight : Nat × Nat
  lead : Nat
  strict : Bool
  sched : Nat
  nextSched : Option Nat
  bucket : Nat
  stepSegs : List Nat
  /-- a step is in progress (false until the opening gate of the PLAN_RUN is released) -/
  inStep : Bool
  /-- step slot of the gate the plan has arrived at, `none` while it runs between gates -/
  gate : Option Nat
  boundary : Bool
  arrival : Nat
  /-- the gate has been released and the plan resumes at the next fabric slot of residue 0 (R307) -/
  released : Bool
  /-- the plan must align before it goes on (R307) -/
  align : Bool
  /-- extension of the gate's deadlines by recalibrations, and the start of the one that runs (R285) -/
  ext : Nat
  recalFrom : Option Nat
  /-- arrays that this gate's swaps have swapped already (Table 09-4) -/
  swapped : List Nat
  /-- the gate's terms, as (handle, target), that have been found to hold (R352) -/
  met : List (Nat × Nat)
  /-- the gate's swaps that did not hold on arrival: (0, array) or (1, gradient unit) -/
  swapWaits : List (Nat × Nat)
  lastGate : Nat
  knotSeen : Nat
  /-- PLAN_STOP and PLAN_UNLOAD flights that wait for the plan to stop, and the tick of the first -/
  stop : List (Nat × Nat)
  stopAt : Option Nat
  /-- the CONTEXT_DESTROY that waits for the plan's next gate (R339) -/
  destroy : Option (Nat × Nat)
  roster : List Rostered
  stepGen : Nat
  nextGen : Nat
  /-- layers that this run has counted as unavailable (R169) -/
  unavail : List Nat
  /-- plan slot `baseSlot` of the step runs in fabric slot `fslot` -/
  fslot : Nat
  baseSlot : Nat
  /-- fabric slot that follows the slot before the gate which the plan last left -/
  leftAt : Nat
  /-- an optimiser plan's step: what it has found, and what it has overwritten, oldest first (R256) -/
  scan : Scan
  undo : List BlkImg
  deriving DecidableEq, Repr

/-- A seal in progress for a learning context (R259, R407): the receiving context, its flight, the generation block, the base of
the working set, the shard map as (first plane, planes, home die), and the generation index it fills. -/
structure Sealing where
  recv : Nat
  flight : Nat × Nat
  block : Bytes
  work : Nat
  map : List (Nat × Nat × Nat)
  gen : Nat
  deriving DecidableEq, Repr

/-- A context (type 0x1). -/
structure Ctx where
  tenant : Nat
  created : Nat
  kv : KvRec
  key : Bytes
  kvKey : Bytes
  primary : Option Nat
  fallback : Option Nat
  run : Option Run
  lastError : Nat
  lastPlan : Nat
  lastStrict : Bool
  lastSched : Nat
  steps : Nat
  esc : List Nat
  escUnavail : List Nat
  /-- escalations that wait for their gate: layer, cause (0 software removes, 1 software adds, 2 a shim unit raised), tick -/
  escPend : List (Nat × Nat × Nat)
  faulted : Option Nat
  faultState : Bool
  /-- ticks of the withdrawals, overruns, late flits, over-limit passes and passes on retired arrays that count against its
  gates (R165, Table 11-9 row 2) -/
  strikes : List Nat
  /-- serving: the current generation's handle (0 none), waited counts per generation, and the generations that are ready and
  wait to become current, with the time they became ready -/
  curGen : Nat
  waited : List (Nat × Nat)
  genQueue : List (Nat × Nat)
  spillSeq : Nat
  farFree : List Nat
  farNext : Nat
  sealOp : Option Sealing
  deriving DecidableEq, Repr

/-! ### Request serving (chapter 12) -/

/-- A cut-list entry (Table 12-1). -/
structure ReqEnt where
  state : Nat
  priority : Nat
  spillable : Bool
  follow : Bool
  boundStrict : Bool
  cancelPending : Bool
  cancelLate : Bool
  spillHold : Bool
  yielded : Bool
  deadlineMissed : Bool
  pausePending : Bool
  specLen : Nat
  endCode : Nat
  rejectRun : Nat
  ctx : Nat
  gen : Nat
  length : Nat
  promptLen : Nat
  dir : Nat
  ringHead : Nat
  ringTail : Nat
  deadline : Nat
  interval : Nat
  ttl : Nat
  pauseStamp : Nat
  admitStamp : Nat
  output : Nat
  userTag : Nat
  stopToken : Nat
  maxNew : Nat
  outCount : Nat
  switchStep : Nat
  promptAddr : Nat
  draftAddr : Nat
  draftCount : Nat
  expireAt : Nat
  /-- poison of one of its directory entries or of its prompt found before use (R434) -/
  poisonFound : Bool
  /-- first tokens after a generation switch still to be delivered -/
  switched : Bool
  deriving DecidableEq, Repr

/-- A cancel, pause or draft waiting for its gate: the flight, the request, the tick it executed in, and its kind (0 cancel,
1 pause, 2 draft with its address, count and base). -/
structure Due where
  flight : Nat × Nat
  idx : Nat
  tick : Nat
  kind : Nat
  args : List Nat
  deriving DecidableEq, Repr

structure ReqSt where
  entries : Sparse (Option ReqEnt)
  free : Nat
  live : Nat
  ended : Nat
  committed : Nat
  delivered : Nat
  due : List Due
  /-- REQ_ENTRY_DATA as last captured, REQ_CTX_CFG and REQ_CTX_URGENT by context index -/
  captured : List Nat
  stopped : Bool
  censusFail : Bool
  cfg : Sparse Nat
  urgent : Sparse Nat
  deriving DecidableEq, Repr

/-! ### Power, temperature and bring-up (chapters 16 and 17) -/

/-- Package power (R471 to R475). -/
structure Pwr where
  power : Nat
  thermal : Nat
  pacer : Nat
  limitSust : Nat
  limitPeak : Nat
  /-- device time since which the input has stayed above the sustained limit -/
  aboveSince : Option Nat
  inputWarn : Bool
  /-- package input energy since power-up in units of 10 µJ, and the rails' power of each die in W (R474, Tables 16-14, 16-16) -/
  energy : Nat
  dieW : List Nat
  watts : Nat
  voltage : Nat
  coolantWarn : Bool
  inlet : Int
  outlet : Int
  diodeBad : List Bool
  deriving DecidableEq, Repr

/-- One frame die's wake state (R477 to R479): the state, and while it wakes the start of the wake and the state it wakes to
(0 but for the last row of Table 16-7 that names PWR_WAKE_LAT). -/
structure Wake where
  state : Nat
  waking : Bool
  since : Nat
  target : Nat
  deriving DecidableEq, Repr

/-- One temperature sensor: own reading, reading after replacement (1/16 °C, signed), broken mark, and whether its previous
reading was 108 °C or more. -/
structure Sensor where
  raw : Int
  temp : Int
  broken : Bool
  hot : Bool
  deriving DecidableEq, Repr

/-- A trip record (Table 16-6). -/
structure Trip where
  seq : Nat
  time : Nat
  cause : Nat
  die : Nat
  sensor : Nat
  temp : Int
  inlet : Int
  dieMax : List Int
  voltage : Nat
  power : Nat
  pacer : Nat
  deriving DecidableEq, Repr

/-- A shutdown in progress (Table 16-5): its record and the stage reached. -/
structure Shutdown where
  stage : Nat
  record : Trip
  start : Nat
  deriving DecidableEq, Repr

/-- One copy of an image in the log flash (Table 17-2): its bytes, empty when it holds none. -/
abbrev Image := Bytes

/-- Management controller: where the package stands between power and ready (R489 to R493). `phase`: 0 input off, 1 standby
(shut down or stopped), 2 bring-up, 3 ready. -/
structure Boot where
  phase : Nat
  step : Nat
  failed : Bool
  failCode : Nat
  hostReleased : Bool
  mcState : Nat
  fallback : Nat
  copyB : Nat
  stepEnd : List Nat
  fillDone : List Nat
  calDone : Bool
  hostOk : Bool
  devReady : Nat
  deriving DecidableEq, Repr

/-- What the log flash keeps across power cycles besides the event log (Tables 17-2 and 10-5). -/
structure Flash where
  images : List (List Image)
  highest : List Nat
  knotA : Option Bytes
  knotB : Option Bytes
  reissue : Bool
  lanes : Sparse Nat
  mapouts : List Nat
  trips : List Trip
  tripSeq : Nat
  acked : Bool
  deriving DecidableEq, Repr

/-- Identity and signed configuration (R494, R495). -/
structure Ident where
  seed : Bytes
  publicKey : Bytes
  moduleId : Bytes
  plaivoKey : Bytes
  romVersion : Nat
  versions : List Nat
  digests : List Bytes
  portBase : Nat
  updating : Option (Nat × Nat)
  attesting : Option (Nat × Nat)
  deriving DecidableEq, Repr

/-! ### Fabric (chapter 10) -/

/-- A die record of the knot map (Table 10-6). -/
structure KnotDie where
  bents : List Nat
  routers : List Nat
  links : List Nat
  arrays : List Nat
  att : List Nat
  grad : List Nat
  channels : Nat
  deriving DecidableEq, Repr

/-- The knot map in force (Table 10-5). -/
structure KnotMap where
  version : Nat
  issued : Nat
  cause : Nat
  dies : List KnotDie
  deriving DecidableEq, Repr

/-- One router: slots completed since `Fab.base`, its 8 hold entries (R304), and the flits it sent on its outputs N, E, S, W, L
and X in its last slots, latest first (empty flits are `none`). -/
structure Router where
  slot : Nat
  hold : List (Option Flit)
  out : List (List (Option Flit))
  deriving DecidableEq, Repr

/-- The fabric: its routers (key: 128 × die + bent) and the slot number from which they count; flits that units put on the L
and X inputs and ring ports on theirs, with the router, input and slot they are due in; which sending words have put theirs
there, as (router, input, slot); the flits that routers have sent to units, as (router, output, slot, flit); the flits of a 4 KiB
block that each ring port has gathered on its way to T1, as data and sideband bits (R325). -/
structure Fab where
  routers : Sparse Router
  base : Nat
  staged : List (Nat × Nat × Nat × Flit)
  given : List (Nat × Nat × Nat)
  landed : List (Nat × Nat × Nat × Flit)
  gather : Sparse (List Nat × Nat)
  knots : KnotMap
  stalled : Bool
  resumeAt : Nat
  /-- link CRC failures: (router, 1 for its E link or 2 for its S link) with the slot of the last one (R300) -/
  crcFails : List (Nat × Nat × Nat)
  /-- working modules of the bridge from each die to the next, and of each die's host link, as masks -/
  modules : List Nat
  hostModules : List Nat
  deriving DecidableEq, Repr

/-! ### Weight generations (chapter 13) -/

/-- One shard that this module holds: the fields of Table 13-3, where it is stored, and its fetch: 0 fetching, 1 passed; failed
arrivals so far. -/
structure Shard where
  shard : Nat
  home : Nat
  plain : Nat
  first : Nat
  planes : Nat
  far : Nat
  digest : Bytes
  base : Nat
  passed : Bool
  fails : Nat
  deriving DecidableEq, Repr

/-- A weight generation (R395 to R405): `digest` is its manifest's digest (R393), `keys` the key store's entries of R394. -/
structure Gen where
  ctx : Nat
  isSeal : Bool
  flight : Nat × Nat
  chan : Nat
  planeCount : Nat
  table : Nat
  areas : List (Nat × Nat)
  shards : List Shard
  keys : List (Nat × Bytes)
  readyAt : Option Nat
  quarantined : Bool
  digest : Bytes
  deriving DecidableEq, Repr

/-- The hasher of one frame die (R403): the shards still to be hashed in its pass as (generation handle, shard index), and the
shard that it hashes once more (R404). -/
structure Hasher where
  todo : List (Nat × Nat)
  rehash : Option (Nat × Nat)
  deriving DecidableEq, Repr

/-! ### Ports and channels (chapter 15) -/


/-- An operation in flight on a channel: the descriptor it belongs to (none for one of the device's own transfers), its
identifier, whether it reads, where the next response goes, the response bytes still to come, and the poisoned blocks it has
delivered. -/
structure TpOp where
  flight : Option (Nat × Nat)
  op : Nat
  read : Bool
  dest : Nat
  left : Nat
  poisoned : Nat
  deriving DecidableEq, Repr

/-- A transport channel (R453 to R460). Credit and cell counts are by virtual channel. It pairs when OPEN_ACK arrives; `peerEpoch`
is 0 until an OPEN or OPEN_ACK of the peer has arrived. `rounds` counts retry rounds without progress, and `progress` is the
time of the last acknowledgement progress or round. -/
structure Channel where
  tenant : Nat
  peerMac : Nat
  key : Nat
  mask : Nat
  base : Nat
  bytes : Nat
  notify : Nat
  vlan : Nat
  rxLimit : List Nat
  retryTimeout : Nat
  retryLimit : Nat
  openBy : Nat
  flight : Nat × Nat
  paired : Bool
  peer : Nat
  peerEpoch : Nat
  peerBytes : Nat
  port : Nat
  nextSeq : Nat
  expect : Nat
  unacked : List Pkt
  queued : List Pkt
  txLimit : List Nat
  txAvail : List Nat
  txOut : List Nat
  granted : List Nat
  rxHeld : List Nat
  freed : List Nat
  grantTurn : Nat
  nakSent : Bool
  unackedRx : Nat
  rounds : Nat
  progress : Nat
  ops : List TpOp
  nextOp : Nat
  deriving DecidableEq, Repr

/-- An optical port: its state (Table 15-9), mode, lanes, bad windows of each lane, bad CRC windows (R449), and the pre-FEC bit
error ratio of each lane over the last window as an FP32 pattern (Table 15-20). -/
structure Port where
  state : Nat
  native : Bool
  active : Nat
  retired : Nat
  badWindows : List Nat
  crcWindows : Nat
  ber : List Nat
  deriving DecidableEq, Repr

/-- An optical engine: light within R444, and the laser power in 0.01 dBm. -/
structure Optic where
  light : Bool
  power : Int
  deriving DecidableEq, Repr

/-- A frame that a port has sent: the port, the destination address, the VLAN field of the channel, the EtherType and the packet. -/
structure Sent where
  port : Nat
  mac : Nat
  vlan : Nat
  ethertype : Nat
  pkt : Pkt
  deriving DecidableEq, Repr

/-! ### Snapshots, audits and the monitor (chapter 18) -/

/-- Who waits for the snapshot in progress. -/
inductive SnapFor where
  | software
  | periodic
  | audit
  | resume
  | monSnap
  | monAudit
  | monResume
  deriving DecidableEq, Repr

structure SnapSt where
  busy : Bool
  lastComplete : Bool
  skipped : Nat
  seq : Nat
  slot : Nat
  doneTime : Nat
  clear : Bool
  waiters : List SnapFor
  queued : List SnapFor
  consFailed : Nat
  lastPass : Bool
  baud : Nat
  deriving DecidableEq, Repr

/-- A tile in state STEP, or in FOLD_PENDING once `queued` (R247): the gradient unit that last flushed it, context, tile, the T1
addresses of its S and G tiles and its record, and the step. -/
structure Fold where
  unit : Nat
  ctx : Nat
  tile : Nat
  sAddr : Nat
  gAddr : Nat
  recAddr : Nat
  step : Nat
  queued : Bool
  deriving DecidableEq, Repr

/-- Everything the spec gives the package, the commands that wait, and the counter of free values (the model's own). -/
structure State where
  pending : List Instr
  variant : Variant
  time : Nat
  free : Nat
  regs : Sparse W32
  /-- on-die SRAM words corrected, by the page that counts them (R411; key: Page.id) -/
  sramFixed : Sparse Nat
  /-- pages whose SRAM has a permanent fault that no knot map version records yet (Table 14-13) -/
  sramWorn : List Page
  out : Outputs
  sent : List Sent
  handles : Handles
  mem : Mem
  log : EventLog
  flash : Flash
  ident : Ident
  boot : Boot
  pwr : Pwr
  wake : List Wake
  sensors : List (List Sensor)
  shut : Option Shutdown
  que : QueSt
  syncs : Sparse Nat
  ctxs : Sparse (Option Ctx)
  plans : Sparse (Option PlanObj)
  gens : Sparse (Option Gen)
  hashers : List Hasher
  chans : Sparse (Option Channel)
  ports : Sparse Port
  optics : Sparse Optic
  req : ReqSt
  pools : List KvPool
  arrs : Sparse Arr
  bents : Sparse Bent
  atts : Sparse AttEng
  grads : Sparse GUnit
  folds : List Fold
  cals : Sparse CalBent
  owners : Sparse (Option Nat)
  fab : Fab
  snap : SnapSt
  deriving DecidableEq, Repr

/-! ### The values at the end of power-on reset (R16) -/

def SlotTable.reset : SlotTable := ⟨[], 0, []⟩
/-- Queue slots 0 to 31 are the admin queues (R341), so QUEUE_CREATE starts at 32. -/
def Handles.reset : Handles :=
  ⟨SlotTable.reset, ⟨[], 32, []⟩, SlotTable.reset, SlotTable.reset, SlotTable.reset, SlotTable.reset, SlotTable.reset⟩
def Plane.zero : Plane := ⟨[], 0, [], [], 0⟩
/-- SHIM_ESC_CFG.window_log2 resets to 10 (Table 05-10). -/
def EscWin.first : EscWin := ⟨0, 10, 0, false⟩
/-- CAL_CFG.rate_log2 resets to 30 (Table 09-7). -/
def CalArr.reset : CalArr := ⟨[], 0, 0, 0, [], [], [], [], false, false, false, 30, 0, 0, 0⟩
def Arr.reset : Arr where
  live := 0
  plane0 := Plane.zero
  plane1 := Plane.zero
  staged := 0
  loadError := 0
  rows := 0
  poisoned := false
  loading := none
  waiting := []
  draining := false
  swapWaiting := false
  retired := 0
  misses := []
  activeCoef := 0
  coef0 := []
  coef1 := []
  bankState := 0
  passes := []
  nextPass := 0
  store := []
  claims := []
  nextEntry := 0
  escCur := EscWin.first
  escPrev := EscWin.first
  escPending := false
  cal := CalArr.reset
  scores := []
  soft := []
def LRow.closed : LRow := ⟨false, 0, 0, [], 0, 0, false⟩
def Bent.reset : Bent := ⟨[], [], [], [], 0, 0, []⟩
def KvPool.reset : KvPool := ⟨0, 0, false, [], 0, 0, 0, 0, false, false, [], []⟩
def AttEng.reset : AttEng := ⟨0, 0, 0, 0, 0, 0, 0, [], [], [], [], 0⟩
def GBank.reset : GBank := ⟨[], 0, none, 0, 0, 0, 0, 0, 0, 0⟩
def GUnit.reset : GUnit := ⟨0, GBank.reset, GBank.reset⟩
def CalBent.reset : CalBent := ⟨0, 0, none, false, 0, 0⟩
def ReqSt.reset : ReqSt := ⟨[], 65536, 0, 0, 0, 0, [], [], false, false, [], []⟩
/-- REQ_CTX_CFG at reset: reject_max 3, gen_skip_max 4, urgent_bucket 15 (Table 12-16). -/
abbrev reqCfgReset : Nat := 0x3040F
/-- Both pacer demands stand at 1,000 ps (Tables 16-15 and 16-21), and so does the pacer (R475). -/
def Pwr.reset : Pwr := 
  ⟨1000, 1000, 1000, 2600, 3000, none, false, 0, [0, 0, 0, 0], 0, 0, false, 0, 0, [false, false, false, false]⟩
def Wake.reset : Wake := ⟨0, false, 0, 0⟩
def Sensor.reset : Sensor := ⟨0, 0, false, false⟩
def KnotMap.reset : KnotMap := ⟨0, 0, 0, []⟩
def Fab.reset : Fab := ⟨[], 0, [], [], [], [], KnotMap.reset, false, 0, [], [63, 63, 63, 63], [15, 15, 15, 15]⟩
def Scan.zero : Scan := ⟨0, 0, 0, 0⟩
def Router.reset : Router := ⟨0, [], []⟩
def Port.reset : Port := ⟨0, false, 0, 0, [], 0, []⟩
def Optic.reset : Optic := ⟨false, 0⟩
def Hasher.reset : Hasher := ⟨[], none⟩
def QueSt.reset : QueSt := ⟨[], [], [], 0, [], [], [], [], []⟩
def SnapSt.reset : SnapSt := ⟨false, false, 0, 0, 0, 0, false, [], [], 0, false, 115200⟩
def Mem.reset : Mem := ⟨[], [], [], [], [], [], [], [], [], [], []⟩
/-- The event log of a flash that holds no record yet. DESIGN CHOICE: log entry 4. -/
def EventLog.reset : EventLog := ⟨1, [], [], false⟩
/-- The flash as the module carries it: its images are free values (Config.flashImage), and no state record is written. -/
def Flash.reset : Flash where
  images := [[Config.flashImage 1 0, Config.flashImage 1 1], [Config.flashImage 2 0, Config.flashImage 2 1],
    [Config.flashImage 3 0, Config.flashImage 3 1]]
  highest := [0, 0, 0]
  knotA := none
  knotB := none
  reissue := false
  lanes := []
  mapouts := []
  trips := []
  tripSeq := 0
  acked := true
def Ident.reset : Ident := ⟨[], [], [], [], Config.romVersion, [0, 0, 0], [[], [], []], 0, none, none⟩
/-- Before the input first reaches 46 V (R489). -/
def Boot.reset : Boot where
  phase := 0
  step := 0
  failed := false
  failCode := 0
  hostReleased := false
  mcState := 0
  fallback := 0
  copyB := 0
  stepEnd := [0, 0, 0, 0, 0, 0, 0, 0]
  fillDone := []
  calDone := false
  hostOk := false
  devReady := 0
def Outputs.reset : Outputs := ⟨[], .none, [], []⟩

/-- The package at the end of power-on reset, before the input reaches 46 V: every register at its Reset value (R16), device
time 0 (Table 17-1), no command waiting. The variant is DESIGN CHOICE: log entry 2. -/
def State.reset : State where
  pending := []
  variant := .vxj4t
  time := 0
  free := 0
  regs := []
  sramFixed := []
  sramWorn := []
  out := Outputs.reset
  sent := []
  handles := Handles.reset
  mem := Mem.reset
  log := EventLog.reset
  flash := Flash.reset
  ident := Ident.reset
  boot := Boot.reset
  pwr := Pwr.reset
  wake := List.replicate 4 Wake.reset
  sensors := List.replicate 4 (List.replicate 145 Sensor.reset)
  shut := none
  que := QueSt.reset
  syncs := []
  ctxs := []
  plans := []
  gens := []
  hashers := List.replicate 4 Hasher.reset
  chans := []
  ports := []
  optics := []
  req := ReqSt.reset
  pools := List.replicate 4 KvPool.reset
  arrs := []
  bents := []
  atts := []
  grads := []
  folds := []
  cals := []
  owners := []
  fab := Fab.reset
  snap := SnapSt.reset

end Sys2Proof.Machine
end

