-- ==== Sys2Proof/Machine/Ops.lean ====
section
/-!
DEFINITION. The named operations over registers, interrupts, error latches, the event log and handles: every meaning goes
through these.
-/

namespace Sys2Proof

/-- Frame dies of a variant (Table 00-1). -/
def Variant.dies : Variant → Nat
  | .vxj4t => 4
  | .vxj4s => 4
  | .vxj2s => 2

/-- Pages of one device-wide block (Table 02-4, R48). -/
def Block.mirrored : Block → Bool
  | .dev | .sec | .log | .snap | .que | .sync | .req => true
  | .pres | .mc | .bent | .arr | .shim | .ledg | .att | .grad | .fab | .plan | .kvp | .wgt | .mem | .scrb | .port | .opt
  | .pwr | .thm | .cal => false

/-- Index of a page in its die's window, in units of 4 KiB (Tables 02-3, 02-4 and 02-5). -/
def Page.index (p : Page) : Nat :=
  match p.blk with
  | .dev => 0x00
  | .pres => 0x01
  | .mc => 0x02
  | .sec => 0x03
  | .log => 0x04
  | .snap => 0x05
  | .pwr => 0x06
  | .thm => 0x07
  | .fab => 0x08
  | .plan => 0x09
  | .que => 0x0A
  | .sync => 0x0B
  | .req => 0x0C
  | .kvp => 0x0D
  | .wgt => 0x0E
  | .mem => 0x0F
  | .scrb => 0x10
  | .att => 0x20 + p.unit
  | .grad => 0x30 + p.unit
  | .port => 0x40 + p.unit
  | .opt => 0x48 + p.unit
  | .bent => 0x1000 + 16 * p.unit
  | .arr => 0x1001 + 16 * p.unit + p.sub
  | .shim => 0x1005 + 16 * p.unit + p.sub
  | .ledg => 0x1009 + 16 * p.unit
  | .cal => 0x100A + 16 * p.unit

/-- Table 02-7. -/
def Block.code : Block → Nat
  | .dev => 0x01
  | .pres => 0x02
  | .mc => 0x03
  | .bent => 0x04
  | .arr => 0x05
  | .shim => 0x06
  | .ledg => 0x07
  | .att => 0x08
  | .grad => 0x09
  | .fab => 0x0A
  | .plan => 0x0B
  | .que => 0x0C
  | .sync => 0x0D
  | .req => 0x0E
  | .kvp => 0x0F
  | .wgt => 0x10
  | .mem => 0x11
  | .scrb => 0x12
  | .port => 0x13
  | .opt => 0x14
  | .pwr => 0x15
  | .thm => 0x16
  | .cal => 0x17
  | .sec => 0x18
  | .log => 0x19
  | .snap => 0x1A

/-- The die whose storage holds a page: F0 for the mirrored blocks. -/
def Page.homeDie (p : Page) : Nat := if p.blk.mirrored then 0 else p.die

/-- Key of word `w` (offset / 4) of page `index` in die `die`'s window. -/
def regKey (die index w : Nat) : Nat := (die * 0x10000 + index) * 0x400 + w

/-- Registers of a die page that act as if mirrored: PLAN_CTX_SEL to PLAN_ESC (R356), WGT_GEN_SEL and WGT_GEN_INFO (ch. 13). The
package-wide registers of the PWR and THM pages stand in State. -/
def Block.mirroredAt (b : Block) (off : Nat) : Bool :=
  match b with
  | .plan => 0x44 ≤ off && off < 0x60
  | .wgt => 0x4C ≤ off && off < 0x54
  | _ => false

def Page.key (p : Page) (off : Nat) : Nat := regKey (if p.blk.mirroredAt off then 0 else p.homeDie) p.index (off / 4)

/-- PAGE_ID of a page seen through the window of its own die (Table 02-8). -/
def Page.id (p : Page) : Nat :=
  let inst := match p.blk with
    | .bent | .arr | .shim | .ledg | .cal => p.unit
    | _ => p.die * 64 + p.unit
  p.blk.code * 2 ^ 16 + inst % 256 * 2 ^ 8 + 1

end Sys2Proof

namespace Sys2Proof.Machine

/-- The outcome of every meaning: the next state. -/
def ok (s : State) : Host.Outcome State Fault Refusal := .next s

/-! ### Free values, time and presence -/

/-- The present value of a free draw, and the state with the draw spent. -/
def State.draw (s : State) : Nat := Config.freeValue s.free
def State.spend (s : State) : State := { s with free := s.free + 1 }

/-- Device time never runs back (R33): an event at tick `t` moves it there. -/
def State.at (s : State) (t : Nat) : State := { s with time := max s.time t }

def State.dies (s : State) : Nat := s.variant.dies
def State.dieOk (s : State) (n : Nat) : Bool := n < s.dies

/-- Is the package ready (DEV_STATUS.ready)? -/
def State.ready (s : State) : Bool := s.boot.phase == 3
/-- Does the controller firmware run (R502)? -/
def State.fwRuns (s : State) : Bool := s.boot.mcState == 1

/-- Run an effect only once DEV_STATUS.ready is set and no shutdown runs; otherwise the event cannot happen and the state
stays as it is. -/
def State.whenUp (s : State) (f : State → State) : State := if s.ready && s.shut.isNone then f s else s

/-- Wake state of a die (Table 16-4). -/
def State.wakeOf (s : State) (die : Nat) : Wake := nth Wake.reset s.wake die
def State.awake (s : State) (die : Nat) : Bool := s.dieOk die && (s.wakeOf die).state == 0

/-! ### Pages and register words -/

/-- The page of a block that has one per die, seen through a die's window. -/
def diePage (b : Block) (die : Nat) : Page := ⟨b, die, 0, 0⟩
def unitPage (b : Block) (die unit : Nat) : Page := ⟨b, die, unit, 0⟩
def arrPage (b : Block) (die bent arr : Nat) : Page := ⟨b, die, bent, arr⟩

/-- The stored register word at `off` of a page. -/
def State.rd (s : State) (p : Page) (off : Nat) : W32 := look (regReset p.blk off) s.regs (p.key off)

/-- Store a register word. -/
def State.wr (s : State) (p : Page) (off : Nat) (v : W32) : State :=
  { s with regs := put (regReset p.blk off) s.regs (p.key off) v }

/-- Bits [hi:lo] of a stored register word. -/
def State.fld (s : State) (p : Page) (off hi lo : Nat) : Nat := fieldW (s.rd p off) hi lo

def State.setFld (s : State) (p : Page) (off hi lo v : Nat) : State := s.wr p off (withFieldW (s.rd p off) hi lo v)

/-- Low and high words of a 64-bit register (R9). -/
def State.rd64 (s : State) (p : Page) (off : Nat) : Nat := (s.rd p off).toNat + (s.rd p (off + 4)).toNat * 2 ^ 32
def State.wr64 (s : State) (p : Page) (off v : Nat) : State := (s.wr p off (loW v)).wr p (off + 4) (hiW v)

/-- A 32-bit count that saturates at all ones (R15). -/
def satAdd (w : W32) (n : Nat) : W32 := BitVec.ofNat 32 (min (w.toNat + n) 0xFFFFFFFF)

/-- Add to an event counter (R15). -/
def State.bumpN (s : State) (p : Page) (off n : Nat) : State := s.wr p off (satAdd (s.rd p off) n)
def State.bump (s : State) (p : Page) (off : Nat) : State := s.bumpN p off 1
/-- Add to a running total, which wraps. -/
def State.add64 (s : State) (p : Page) (off n : Nat) : State := s.wr64 p off ((s.rd64 p off + n) % 2 ^ 64)

/-! ### Interrupts (R62 to R64) -/

/-- The 32-bit words of the MSI-X table and pending-bit array, at 0x0F_0000 and 0x0F_8000 of a die's window. Layout of an
entry as PCI Express gives it (PRESUMED: log entry 6): address low and high, data, control with the mask in bit 0. -/
def msixKey (die entry w : Nat) : Nat := regKey die 0xF0 (4 * entry + w)
def pbaKey (die entry : Nat) : Nat := regKey die 0xF8 (entry / 32)
/-- Reset value of word `w` of an entry: masked (PRESUMED: log entry 6). -/
def msixReset (w : Nat) : W32 := if w = 3 then 1 else 0

def State.msixWord (s : State) (die entry w : Nat) : W32 := look (msixReset w) s.regs (msixKey die entry w)
def State.msixMasked (s : State) (die entry : Nat) : Bool := (s.msixWord die entry 3).getLsbD 0
def State.setPba (s : State) (die entry : Nat) (b : Bool) : State :=
  let w := look 0 s.regs (pbaKey die entry)
  { s with regs := put 0 s.regs (pbaKey die entry) (withFieldW w (entry % 32) (entry % 32) (b2n b)) }
def State.pba (s : State) (die entry : Nat) : Bool := bitAt (look 0 s.regs (pbaKey die entry)).toNat (entry % 32)

/-- Send the message of an entry: a masked entry sets its pending bit instead (R63). -/
def State.sendMsix (s : State) (die entry : Nat) : State :=
  if s.msixMasked die entry then s.setPba die entry true
  else
    let m : MsixMsg := ⟨die, entry, (s.msixWord die entry 0).toNat + (s.msixWord die entry 1).toNat * 2 ^ 32,
      (s.msixWord die entry 2).toNat⟩
    { s with out := { s.out with msix := s.out.msix ++ [m] } }

/-- A page's interrupt line (R63). -/
def State.line (s : State) (p : Page) : Bool :=
  (s.rd p Reg.PAGE_CTRL).getLsbD 0 && (s.rd p Reg.PAGE_IRQ_STAT &&& s.rd p Reg.PAGE_IRQ_EN) != 0

/-- The message of a page goes through its own die's table, that of a mirrored page through F0's (R62). -/
def State.sendPage (s : State) (p : Page) : State := s.sendMsix p.homeDie (s.fld p Reg.PAGE_CTRL 26 16)

/-- After a change of a page's header from `old` to `new`: send the message when the line rises (R63). -/
def riseFrom (old new : State) (p : Page) : State := if !old.line p && new.line p then new.sendPage p else new

/-- Set event bits of PAGE_IRQ_STAT. -/
def State.raise (s : State) (p : Page) (bit : Nat) : State :=
  riseFrom s (s.wr p Reg.PAGE_IRQ_STAT (s.rd p Reg.PAGE_IRQ_STAT ||| BitVec.ofNat 32 (2 ^ bit))) p

/-! ### The event log (R514) and error latches (R52) -/

/-- Put a record into the controller's buffer; a record that finds 4,096 there is lost and its number skipped. -/
def State.logPush (s : State) (r : LogRec) : State :=
  if s.log.buffer.length < 4096 then
    { s with log := { s.log with nextSeq := s.log.nextSeq + 1, buffer := s.log.buffer ++ [r] }, free := s.free + 1 }
  else
    ({ s with log := { s.log with nextSeq := s.log.nextSeq + 1 }, free := s.free + 1 }.bump (diePage .log 0)
      Reg.LOG_LOST_COUNT).raise (diePage .log 0) 2

/-- Log an event. Its severity is free where the spec states none. The tag of the page's owner (R53) stands in the first 4 of its 20
bytes of event data, for which Table 18-3 names no place; the others are free. DESIGN CHOICE: log entry 64. -/
def State.logEvent (s : State) (p : Page) (code : Nat) (sev ctx : Option Nat) (detail kind addr : Nat) : State :=
  s.logPush ⟨s.log.nextSeq, s.time, p.id, code, sev.getD (Config.logSeverity s.free % 4), ctx, detail, kind, addr,
    (s.rd p Reg.PAGE_OWNER).toNat + 2 ^ 32 * (Config.logData s.free % 2 ^ 128)⟩

def ctxWord (ctx : Option Nat) (detail : Nat) : W32 :=
  match ctx with
  | some c => packW [(31, 1), (21, c % 1024), (0, detail % 2 ^ 16)]
  | none => packW [(0, detail % 2 ^ 16)]

/-- Is an error latched on the page (PAGE_STAT.err_valid)? -/
def State.errValid (s : State) (p : Page) : Bool := s.fld p Reg.PAGE_ERR_CODE 7 0 != 0

/-- Severity of a latched error's record where Table 18-3 states it from the code alone: 3 for a conservation fault. -/
def errSeverity (code : Nat) : Option Nat := if code = Err.conservation then some 3 else none

/-- A page detects an error (R52): the first is latched and logged with a severity, later ones are counted; both set
PAGE_IRQ_STAT.err. -/
def State.latchErrAs (s : State) (sev : Option Nat) (p : Page) (code : Nat) (ctx : Option Nat) (detail addr : Nat) : State :=
  if s.errValid p then
    (s.setFld p Reg.PAGE_ERR_CODE 31 16 (min (s.fld p Reg.PAGE_ERR_CODE 31 16 + 1) 0xFFFF)).raise p 0
  else
    ((((s.setFld p Reg.PAGE_ERR_CODE 7 0 code).wr p Reg.PAGE_ERR_INFO (ctxWord ctx detail)).wr64 p Reg.PAGE_ERR_ADDR
      addr).raise p 0).logEvent p code sev ctx detail 0 addr

def State.latchErr (s : State) (p : Page) (code : Nat) (ctx : Option Nat) (detail addr : Nat) : State :=
  s.latchErrAs (errSeverity code) p code ctx detail addr

/-- A unit's page reads an on-die SRAM word (R411): a corrected bit is counted, two wrong bits are latched, and a permanent fault is
noted until the unit is retired for it (Table 14-13). -/
def State.sramSeen (s : State) (p : Page) (x : SramRead) (ctx : Option Nat) : State :=
  let s1 := if sramPermanent x && !s.sramWorn.contains p then { s with sramWorn := s.sramWorn ++ [p] } else s
  match x with
  | .clean => s1
  | .corrected | .again => { s1 with sramFixed := put 0 s.sramFixed p.id (look 0 s.sramFixed p.id + 1) }
  | .double | .wrong => s1.latchErr p Err.uncorrectable ctx 0 0

/-- A unit reads several SRAM words, one after the other. -/
def State.sramsSeen (s : State) (p : Page) (ctx : Option Nat) (rs : List SramRead) : State :=
  rs.foldl (fun s x => s.sramSeen p x ctx) s

/-- PAGE_CTRL.err_log_clear: the latched values and the overrun count go (R52). -/
def State.clearErr (s : State) (p : Page) : State :=
  ((s.wr p Reg.PAGE_ERR_CODE 0).wr p Reg.PAGE_ERR_INFO 0).wr64 p Reg.PAGE_ERR_ADDR 0

/-! ### Handles (R57 to R61) -/

/-- Object types of Table 02-25. -/
inductive HType where
  | ctx
  | que
  | sync
  | req
  | plan
  | gen
  | chan
  deriving DecidableEq, Repr

def HType.code : HType → Nat
  | .ctx => 1
  | .que => 2
  | .sync => 3
  | .req => 4
  | .plan => 5
  | .gen => 6
  | .chan => 7

/-- Slots of each type (Table 02-25). -/
def HType.range : HType → Nat
  | .ctx => 1024
  | .que => 32768
  | .sync => 65536
  | .req => 65536
  | .plan => 4096
  | .gen => 4096
  | .chan => 8192

def Handles.get (h : Handles) : HType → SlotTable
  | .ctx => h.ctx
  | .que => h.que
  | .sync => h.sync
  | .req => h.req
  | .plan => h.plan
  | .gen => h.gen
  | .chan => h.chan

def Handles.set (h : Handles) (t : HType) (v : SlotTable) : Handles :=
  match t with
  | .ctx => { h with ctx := v }
  | .que => { h with que := v }
  | .sync => { h with sync := v }
  | .req => { h with req := v }
  | .plan => { h with plan := v }
  | .gen => { h with gen := v }
  | .chan => { h with chan := v }

/-- The slot at an index. An admin queue slot counts as held by its tenant at all times (R341). -/
def State.slot (s : State) (t : HType) (i : Nat) : Slot :=
  let sl := look Slot.unused (s.handles.get t).slots i
  if t = .que && i < 32 then { sl with gen := 1, owner := some (i % 16) } else sl

/-- A handle word (R57). -/
def mkHandle (t : HType) (gen i : Nat) : Nat := t.code * 2 ^ 28 + gen % 2 ^ 12 * 2 ^ 16 + i % 2 ^ 16
def hType (h : Nat) : Nat := bits h 31 28
def hGen (h : Nat) : Nat := bits h 27 16
def hIdx (h : Nat) : Nat := bits h 15 0

/-- The present handle of a slot. -/
def State.handleOf (s : State) (t : HType) (i : Nat) : Nat := mkHandle t (s.slot t i).gen i

/-- The checks of R59 in order: 0 when the handle passes for a submitter of the tenant. -/
def State.checkHandle (s : State) (tenant : Nat) (t : HType) (h : Nat) : Nat :=
  if hType h ≠ t.code then Err.badHandle
  else if t.range ≤ hIdx h || hGen h == 0 then Err.badHandle
  else if (s.slot t (hIdx h)).owner ≠ some tenant then Err.badHandle
  else if !(s.slot t (hIdx h)).live || (s.slot t (hIdx h)).gen != hGen h then
    (if t = .gen then Err.genRetired else Err.staleHandle)
  else 0

/-- Checks 1, 2 and 4 of R59, for a handle validated as the object's own tenant (Table 11-33, R497). -/
def State.checkOwn (s : State) (t : HType) (h : Nat) : Nat :=
  s.checkHandle ((s.slot t (hIdx h)).owner.getD 0) t h

/-- Slots that no object holds. -/
def SlotTable.hasFree (t : SlotTable) (range : Nat) : Bool := t.fresh < range || !t.freed.isEmpty

/-- The free slot that was freed least recently, never-used ones first in ascending index (R58). -/
def SlotTable.next (t : SlotTable) (range : Nat) : Nat := if t.fresh < range then t.fresh else t.freed.headD 0

/-- Take the next slot for a tenant. -/
def SlotTable.take (t : SlotTable) (range tenant : Nat) : SlotTable :=
  let i := t.next range
  let sl := look Slot.unused t.slots i
  { slots := put Slot.unused t.slots i { sl with live := true, owner := some tenant }
    fresh := if t.fresh < range then t.fresh + 1 else t.fresh
    freed := if t.fresh < range then t.freed else t.freed.tail }

/-- The generation after `g`: 0xFFF is followed by 0x001 (R58). -/
def nextGen (g : Nat) : Nat := if g = 0xFFF then 1 else g + 1

/-- Give a slot back: its generation rises (R58). -/
def SlotTable.drop (t : SlotTable) (i : Nat) : SlotTable :=
  let sl := look Slot.unused t.slots i
  { t with slots := put Slot.unused t.slots i { sl with live := false, gen := nextGen sl.gen }, freed := t.freed ++ [i] }

def State.hasFreeSlot (s : State) (t : HType) : Bool := (s.handles.get t).hasFree t.range
def State.nextSlot (s : State) (t : HType) : Nat := (s.handles.get t).next t.range
def State.takeSlot (s : State) (t : HType) (tenant : Nat) : State :=
  { s with handles := s.handles.set t ((s.handles.get t).take t.range tenant) }
def State.dropSlot (s : State) (t : HType) (i : Nat) : State :=
  { s with handles := s.handles.set t ((s.handles.get t).drop i) }

/-! ### Contexts, arrays and bents -/

def State.ctx (s : State) (c : Nat) : Option Ctx := look none s.ctxs c
def State.setCtx (s : State) (c : Nat) (x : Option Ctx) : State := { s with ctxs := put none s.ctxs c x }
/-- Change a context that exists. -/
def State.onCtx (s : State) (c : Nat) (f : Ctx → Ctx) : State :=
  match s.ctx c with
  | some x => s.setCtx c (some (f x))
  | none => s

/-- Fault a context (R433): it takes effect at the context's next gate; the first code stands. -/
def State.faultCtx (s : State) (c code : Nat) : State :=
  s.onCtx c (fun x => if x.faulted.isNone then { x with faulted := some code } else x)

/-- A unit consumes poison for a context (R433): the error is latched on the unit's page and the context is faulted. -/
def State.consumePoison (s : State) (p : Page) (c addr : Nat) : State :=
  (s.latchErrAs (some 3) p Err.poison (some c) 0 addr).faultCtx c Err.poison

/-- Keys of a bent and of an array, device-wide. -/
def bentKey (die bent : Nat) : Nat := die * 128 + bent
def arrKey (die bent arr : Nat) : Nat := bentKey die bent * 4 + arr
def unitKey (die unit : Nat) : Nat := die * 16 + unit

def State.arr (s : State) (die bent a : Nat) : Arr := look Arr.reset s.arrs (arrKey die bent a)
def State.setArr (s : State) (die bent a : Nat) (x : Arr) : State :=
  { s with arrs := put Arr.reset s.arrs (arrKey die bent a) x }
def State.bent (s : State) (die bent : Nat) : Bent := look Bent.reset s.bents (bentKey die bent)
def State.setBent (s : State) (die bent : Nat) (x : Bent) : State :=
  { s with bents := put Bent.reset s.bents (bentKey die bent) x }
def State.att (s : State) (die e : Nat) : AttEng := look AttEng.reset s.atts (unitKey die e)
def State.setAtt (s : State) (die e : Nat) (x : AttEng) : State :=
  { s with atts := put AttEng.reset s.atts (unitKey die e) x }
def State.grad (s : State) (die g : Nat) : GUnit := look GUnit.reset s.grads (unitKey die g)
def State.setGrad (s : State) (die g : Nat) (x : GUnit) : State :=
  { s with grads := put GUnit.reset s.grads (unitKey die g) x }
def State.calBent (s : State) (die bent : Nat) : CalBent := look CalBent.reset s.cals (bentKey die bent)
def State.setCal (s : State) (die bent : Nat) (x : CalBent) : State :=
  { s with cals := put CalBent.reset s.cals (bentKey die bent) x }
/-- First of the eight bents that an attention engine or gradient unit serves (R24). -/
def unitBent (e : Nat) : Nat := e / 2 * 16 + e % 2 * 8

/-- The context that owns a bent (R263). -/
def State.owner (s : State) (die bent : Nat) : Option Nat := look none s.owners (bentKey die bent)
def State.pool (s : State) (die : Nat) : KvPool := nth KvPool.reset s.pools die
def State.setPool (s : State) (die : Nat) (x : KvPool) : State := { s with pools := s.pools.set die x }

/-! ### Knots and retired units (R135 to R138, R311) -/

def State.knotDie (s : State) (die : Nat) : KnotDie := nth ⟨[], [], [], [], [], [], 0⟩ s.fab.knots.dies die
def State.bentIsKnot (s : State) (die bent : Nat) : Bool := (s.knotDie die).bents.contains bent
def State.arrIsKnot (s : State) (die bent a : Nat) : Bool :=
  s.bentIsKnot die bent || (s.knotDie die).arrays.contains (4 * bent + a) || (s.arr die bent a).retired != 0
def State.attIsKnot (s : State) (die e : Nat) : Bool := (s.knotDie die).att.contains e
def State.gradIsKnot (s : State) (die g : Nat) : Bool := (s.knotDie die).grad.contains g
/-- Are gradient units present (Table 00-1)? -/
def State.hasGrad (s : State) : Bool := s.variant == .vxj4t

/-- THM_TRIP.latched: a shutdown awaits acknowledgement (R484). -/
def State.tripLatched (s : State) : Bool := !s.flash.trips.isEmpty && !s.flash.acked

/-! ### Writes of registers (Table 02-6, R478) -/

/-- Is there a unit behind a page (Tables 02-4, 02-5)? -/
def State.pagePresent (s : State) (p : Page) : Bool :=
  s.dieOk p.die && (match p.blk with
    | .mc => p.die == 0 && p.unit == 0 && p.sub == 0
    | .att => p.unit < 16 && p.sub == 0
    | .grad => p.unit < 16 && p.sub == 0 && s.hasGrad
    | .port => p.unit < 8 && p.sub == 0
    | .opt => p.unit < 4 && p.sub == 0
    | .bent | .ledg | .cal => p.unit < 128 && p.sub == 0
    | .arr | .shim => p.unit < 128 && p.sub < 4
    | .dev | .pres | .sec | .log | .snap | .pwr | .thm | .fab | .plan | .que | .sync | .req | .kvp | .wgt | .mem | .scrb =>
      p.unit == 0 && p.sub == 0)

/-- Pages that take writes before DEV_STATUS.ready, and pages of a die in W4 that answer (Table 02-6). -/
def earlyBlock (b : Block) : Bool := [Block.dev, .pres, .mc, .sec, .log, .pwr, .thm].contains b
def standbyBlock (b : Block) : Bool := [Block.pres, .pwr, .thm].contains b

def State.setWake (s : State) (die : Nat) (w : Wake) : State := { s with wake := s.wake.set die w }

/-- A demand reaches a part that a die's wake state has switched off: the die starts its return to W0 (R478). -/
def State.wakeDemand (s : State) (die : Nat) : State :=
  let w := s.wakeOf die
  if w.state != 0 && (!w.waking || w.target != 0) then
    s.setWake die { w with waking := true, since := if w.waking then w.since else s.time, target := 0 }
  else s

/-- A software write to a register of a page: without effect where no unit is; dropped in W4, where it starts the wake; latched
as NOT_READY before the package is ready; and otherwise `f`, with the wake of a die in W1 to W3 (Table 02-6, R478). -/
def State.pageWrite (s : State) (p : Page) (f : State → State) : State :=
  if !s.pagePresent p || s.boot.phase < 2 || s.shut.isSome then s
  else if standbyBlock p.blk then f s
  else if (s.wakeOf p.die).state = 4 then s.wakeDemand p.die
  else if !s.ready && !earlyBlock p.blk then s.latchErr p Err.notReady none 0 0
  else f (s.wakeDemand p.die)

/-- Has the host a working link to a die (R41)? -/
def State.linkUp (s : State) (die : Nat) : Bool := nth 15 s.fab.hostModules die != 0

/-- Can the host reach a page: through its die's own link, or any die's for a mirrored page (R41, R48)? -/
def State.reachable (s : State) (p : Page) : Bool :=
  if p.blk.mirrored then (upFrom 0 s.dies).any (fun n => s.linkUp n) else s.linkUp p.die

/-- A page write by software on the host die. -/
def State.hostPage (s : State) (p : Page) (f : State → State) : State := if s.reachable p then s.pageWrite p f else s

end Sys2Proof.Machine
end

