-- ==== Sys2Proof/Machine/Memory.lean ====
section
/-!
DEFINITION. T1: its address ranges (Table 02-2), the memory code as syndromes (R413 to R417), reads and writes with their
corrections, poison and map-outs (R418 to R423), and scribes (R424 to R430).
-/

namespace Sys2Proof.Machine

/-! ### Address ranges -/

abbrev t1Base : Nat := 0x10000000000
abbrev stackSpan : Nat := 0x1000000000
/-- Bytes of a stack window that are populated (R44). -/
abbrev stackBytes : Nat := 0xEE6B28000
/-- Bytes of the host carve-out in each of stacks 0 and 1. -/
abbrev carveBytes : Nat := 0x3B9ACA000

def stackOf (a : Nat) : Nat := (a - t1Base) / stackSpan
def stackOff (a : Nat) : Nat := (a - t1Base) % stackSpan
/-- Frame die that owns the stack of an address (R22). -/
def dieOf (a : Nat) : Nat := stackOf a / 2

/-- Do `n ≥ 1` bytes at `a` lie wholly in one populated stack window? -/
def State.populated (s : State) (a n : Nat) : Bool :=
  decide (t1Base ≤ a) && decide (stackOf a < 2 * s.dies) && decide (stackOff a + n ≤ stackBytes)

/-- Does `a` lie in the host carve-out (R35)? -/
def inCarve (a : Nat) : Bool := decide (t1Base ≤ a) && decide (stackOf a < 2) && decide (stackOff a < carveBytes)

/-- The ranges that R520 allows: wholly in populated T1, in the device part outside the carve-out. -/
def State.devRange (s : State) (a n : Nat) : Bool := n == 0 || (s.populated a n && !inCarve a)

/-! ### The memory code -/

/-- Multiplication by α in GF(2⁸) with polynomial 0x11D (R413). -/
def gfX (a : Nat) : Nat := if a < 128 then 2 * a else (2 * a) ^^^ 0x11D

/-- a·b in GF(2⁸), the low `k` bits of b. -/
def gfMul (a b : Nat) : Nat → Nat
  | 0 => 0
  | k + 1 => (if b % 2 = 1 then a else 0) ^^^ gfMul (gfX a) (b / 2) k

/-- α^p. -/
def gfPow : Nat → Nat
  | 0 => 1
  | p + 1 => gfX (gfPow p)

/-- The syndromes of an error `e` in the symbol at x^p. -/
def syndOf (p e : Nat) : W32 :=
  packW [(0, e), (8, gfMul e (gfPow p) 8), (16, gfMul e (gfPow (2 * p % 255)) 8), (24, gfMul e (gfPow (3 * p % 255)) 8)]

/-- Row 2 of Table 14-3. -/
abbrev poisonSynd : W32 := 0xF05E6C00

/-- Classes of Table 14-3. -/
inductive CwClass where
  | clean
  | poison
  | fix (p e : Nat)
  | bad
  deriving DecidableEq, Repr

/-- Table 14-3: the first row that matches. -/
def classify (w : W32) : CwClass :=
  let s0 := bits w.toNat 7 0
  let s1 := bits w.toNat 15 8
  let s2 := bits w.toNat 23 16
  let s3 := bits w.toNat 31 24
  if w = 0 then .clean
  else if w = poisonSynd then .poison
  else if s0 != 0 && gfMul s1 s1 8 == gfMul s0 s2 8 && gfMul s2 s2 8 == gfMul s1 s3 8 then
    match (upFrom 0 68).find? (fun p => gfMul s0 (gfPow p) 8 == s1) with
    | some p => .fix p s0
    | none => .bad
  else .bad

/-! ### Raw bytes -/

def Mem.byte (m : Mem) (a : Nat) : Byte := look 0 m.t1 a
def Mem.bytes (m : Mem) (a n : Nat) : Bytes := (upFrom a n).map (fun i => m.byte i)
def Mem.putByte (m : Mem) (a : Nat) (b : Byte) : Mem := { m with t1 := put 0 m.t1 a b }
/-- Store a byte string, lowest address first. -/
def Mem.putBytes (m : Mem) (a : Nat) : Bytes → Mem
  | [] => m
  | b :: bs => (m.putByte a b).putBytes (a + 1) bs
def Mem.synd (m : Mem) (cw : Nat) : W32 := look 0 m.chk cw
def Mem.setSynd (m : Mem) (cw : Nat) (w : W32) : Mem := { m with chk := put 0 m.chk cw w }
/-- Write a codeword in poison form (R417): zero data, complemented check bytes. -/
def Mem.poisonCw (m : Mem) (cw : Nat) : Mem :=
  (m.putBytes (cw * 64) (List.replicate 64 (0 : Byte))).setSynd cw poisonSynd
def Mem.scribeOf (m : Mem) (blk : Nat) : W64 := look fillScribe m.scribe blk
def Mem.setScribe (m : Mem) (blk : Nat) (w : W64) : Mem := { m with scribe := put fillScribe m.scribe blk w }
def Mem.orScribe (m : Mem) (blk flags : Nat) : Mem :=
  let w := m.scribeOf blk
  m.setScribe blk (mkScribe (scribeGen w) (scribeProducer w) (scribeFlags w ||| flags) (scribeCrc w))
/-- A byte as a read corrects it. -/
def Mem.fixed (m : Mem) (a : Nat) : Byte :=
  match classify (m.synd (a / 64)) with
  | .fix p e => if 4 ≤ p && a % 64 == 67 - p then m.byte a ^^^ BitVec.ofNat 8 e else m.byte a
  | .clean | .poison | .bad => m.byte a
/-- Bytes as a read corrects them. -/
def Mem.view (m : Mem) (a n : Nat) : Bytes := (upFrom a n).map (fun i => m.fixed i)
/-- Is data of the codeword unusable? -/
def Mem.cwBad (m : Mem) (cw : Nat) : Bool :=
  match classify (m.synd cw) with
  | .poison | .bad => true
  | .clean | .fix _ _ => false

/-- The T1 canonical form: addresses strictly rising and no byte listed that an unlisted address reads as. -/
abbrev Memory.wf (m : Mem) : Bool := sparseWf (fun _ => (0 : Byte)) m.t1

def State.onMem (s : State) (f : Mem → Mem) : State := { s with mem := f s.mem }

/-! ### Faults of codewords (R420 to R423, R431) -/

/-- Add a codeword address to its die's poison list, at most 256 long (R431). -/
def State.listPoison (s : State) (cw : Nat) : State :=
  let die := dieOf (cw * 64)
  let l := look [] s.mem.poison die
  if l.contains cw then s
  else if l.length < 256 then s.onMem (fun m => { m with poison := put [] m.poison die (l ++ [cw]) })
  else s.onMem (fun m => { m with poisonOver := put false m.poisonOver die true })

/-- A whole-codeword write takes the address off the list (R431). -/
def State.unlistPoison (s : State) (cw : Nat) : State :=
  let die := dieOf (cw * 64)
  let l := look [] s.mem.poison die
  if l.contains cw then s.onMem (fun m => { m with poison := put [] m.poison die (l.filter (fun x => x != cw)) }) else s

/-- Start to map out the block of a codeword (R423): it takes a spare of its stack. Without one the codeword stays as it is
and the stack is degraded. -/
def State.startMapout (s : State) (cw : Nat) : State :=
  let blk := cw / 64
  let st := stackOf (cw * 64)
  let used := look 0 s.mem.spares st
  if s.mem.copying.contains blk || 16384 ≤ used then s
  else
    let s1 := s.onMem (fun m => { m with spares := put 0 m.spares st (used + 1), copying := m.copying ++ [blk] })
    if used + 1 = 16384 then s1.raise (diePage .mem (st / 2)) 3 else s1

/-- Start a region scrub of the 256 MiB region that holds an address (R421). -/
def State.startRegion (s : State) (a : Nat) : State :=
  s.onMem (fun m => { m with regionScrub := put none m.regionScrub (stackOf a) (some (a / 2 ^ 28 * 2 ^ 28)) })

/-- Count a correction of a stack for the burst rule of R421: more than ce_burst within 1 ms start a region scrub. -/
def State.countBurst (s : State) (a : Nat) : State :=
  let st := stackOf a
  let l := (s.time :: look [] s.mem.bursts st).filter (fun t => s.time < t + 1000000)
  let lim := s.fld (diePage .mem (dieOf a)) Reg.MEM_SCRUB_CFG 23 16
  let s1 := s.onMem (fun m => { m with bursts := put [] m.bursts st l })
  if lim != 0 && lim < l.length then s1.startRegion a else s1

/-- Correct one codeword (R420) and classify the fault by Table 14-5. -/
def State.correctCw (s : State) (patrol : Bool) (cw p e : Nat) : State :=
  let a := cw * 64
  let pg := diePage .mem (dieOf a)
  let fixData := fun (m : Mem) => if 4 ≤ p then
      m.putByte (a + (67 - p)) (m.byte (a + (67 - p)) ^^^ BitVec.ofNat 8 e) else m
  let s1 := ((s.onMem (fun m => (fixData m).setSynd cw 0)).bump pg
    (if patrol then Reg.MEM_SCRUB_CE_COUNT else Reg.MEM_CE_COUNT)).countBurst a
  let st := stackOf a
  let recent := look [] s1.mem.recent st
  if recent.contains cw then s1.startMapout cw
  else s1.onMem (fun m => { m with recent := put [] m.recent st ((cw :: recent).take 1024) })

/-- What a read that meets a codeword in poison form, or an uncorrectable one, leaves behind (R415, R417, R422, R431, R439).
`back`: does a codeword written in poison form read back so? -/
def State.badCw (s : State) (patrol : Bool) (back : Bool) (isPoison : Bool) (cw : Nat) : State :=
  let pg := diePage .mem (dieOf (cw * 64))
  let cnt := if isPoison then Reg.MEM_POISON_READ_COUNT
    else if patrol then Reg.MEM_SCRUB_UE_COUNT else Reg.MEM_UE_COUNT
  let s1 := (((s.bump pg cnt).latchErr pg Err.uncorrectable none 0 (cw * 64)).raise pg 1).listPoison cw
  if isPoison then s1
  else
    let s2 := s1.onMem (fun m => m.poisonCw cw)
    if back then s2.bump pg Reg.MEM_TRANSIENT_COUNT else s2.startMapout cw

/-- Read one codeword: correct it, or find it poisoned. Where no command says whether a rewritten codeword reads back, a free
value does. -/
def State.touchCw (s : State) (patrol : Bool) (back : Option Bool) (cw : Nat) : State :=
  match classify (s.mem.synd cw) with
  | .clean => s
  | .fix p e => s.correctCw patrol cw p e
  | .poison => s.badCw patrol true true cw
  | .bad => s.spend.badCw patrol (back.getD (s.draw % 2 == 0)) false cw

/-- Read the codewords of a list. -/
def State.touchCws (s : State) : List Nat → State
  | [] => s
  | c :: cs => (s.touchCw false none c).touchCws cs

/-- The codewords that `n` bytes at `a` touch. -/
def cwsOf (a n : Nat) : List Nat := if n = 0 then [] else upFrom (a / 64) ((a + n - 1) / 64 + 1 - a / 64)
/-- The blocks that `n` bytes at `a` touch. -/
def blksOf (a n : Nat) : List Nat := if n = 0 then [] else upFrom (a / 4096) ((a + n - 1) / 4096 + 1 - a / 4096)
/-- Does a range cover the whole block? -/
def wholeBlk (a n b : Nat) : Bool := a ≤ b * 4096 && b * 4096 + 4096 ≤ a + n

/-! ### Writes (R419) -/

/-- Write the bytes of `bs` that fall in one codeword, of a range that starts at `a`; a part of a codeword is merged into what a
read of the old codeword finds, and one whose data is unusable stays in poison form. -/
def State.writeCw (s : State) (a : Nat) (bs : Bytes) (cw : Nat) : State :=
  let lo := max a (cw * 64)
  let hi := min (a + bs.length) (cw * 64 + 64)
  let part := (bs.drop (lo - a)).take (hi - lo)
  if hi - lo = 64 then
    (s.onMem (fun m => (m.putBytes lo part).setSynd cw 0)).unlistPoison cw
  else
    let bad := s.mem.cwBad cw
    (s.touchCw false none cw).onMem (fun m => if bad then m.poisonCw cw else m.putBytes lo part)

def State.writeCws (s : State) (a : Nat) (bs : Bytes) : List Nat → State
  | [] => s
  | c :: cs => (s.writeCw a bs c).writeCws a bs cs

/-- Write a byte string to T1 under R419. -/
def State.writeBytes (s : State) (a : Nat) (bs : Bytes) : State := s.writeCws a bs (cwsOf a bs.length)

/-- A host write (R426): its blocks become unsealed. -/
def State.hostWrite (s : State) (a : Nat) (bs : Bytes) : State :=
  (s.writeBytes a bs).onMem (fun m => (blksOf a bs.length).foldl (fun m b => m.setScribe b hostScribe) m)

/-! ### Reads with scribes (R427) -/

/-- What a unit gets from a read: its bytes and the flags it inherits. -/
structure Rd where
  data : Bytes
  flags : Nat
  deriving DecidableEq, Repr

/-- Record the latest CRC failure on a die's SCRB page (Tables 14-25 to 14-28). -/
def State.crcFailed (s : State) (die : Nat) (transient : Bool) (src addr crc : Nat) (scr : W64) : State :=
  let pg := diePage .scrb die
  (((s.wr pg Reg.SCRB_LAST_STATUS (packW [(31, 1), (30, b2n transient), (0, src)])).wr64 pg Reg.SCRB_LAST_SCRIBE
    scr.toNat).wr pg Reg.SCRB_LAST_CRC (BitVec.ofNat 32 crc)).wr64 pg Reg.SCRB_LAST_ADDR addr

/-- A CRC that fails twice (R427). -/
def State.crcTwice (s : State) (die src addr crc : Nat) (scr : W64) : State :=
  let pg := diePage .scrb die
  ((((s.bump pg Reg.SCRB_CRC_FAIL_COUNT).crcFailed die false src addr crc scr).latchErr pg Err.uncorrectable none 0
    addr).raise pg 1)

/-- Check a whole block that a unit has read from T1: the state after, and the flags the block carries. A codeword found
uncorrectable poisons the block. -/
def State.checkBlk (s : State) (b : Nat) : Nat × State :=
  let scr := s.mem.scribeOf b
  let pg := diePage .scrb (dieOf (b * 4096))
  let bad := (cwsOf (b * 4096) 4096).any (fun c => s.mem.cwBad c)
  let s1 := s.touchCws (cwsOf (b * 4096) 4096)
  if bitAt (scribeFlags scr) 4 then (b2n bad, s1.bump pg Reg.SCRB_UNSEALED_COUNT)
  else if bad then (scribeFlags scr % 16 ||| 1, s1)
  else
    let s2 := s1.bump pg Reg.SCRB_CHECK_COUNT
    let crc := crc32c (s2.mem.bytes (b * 4096) 4096)
    if crc = scribeCrc scr then (scribeFlags scr % 16, s2)
    else (scribeFlags scr % 16 ||| 1,
      (s2.crcTwice (dieOf (b * 4096)) 0 (b * 4096) crc scr).onMem (fun m => m.orScribe b Flag.poison))

/-- Read what a range covers of one block: a whole block is checked, part of one honours its flags (R427). -/
def State.readBlk (s : State) (a n b : Nat) : Nat × State :=
  if wholeBlk a n b then s.checkBlk b
  else
    let lo := max a (b * 4096)
    let hi := min (a + n) (b * 4096 + 4096)
    let cws := cwsOf lo (hi - lo)
    let bad := cws.any (fun c => s.mem.cwBad c)
    (Flag.carried (scribeFlags (s.mem.scribeOf b)) ||| b2n bad, s.touchCws cws)

def State.readBlks (s : State) (a n : Nat) : List Nat → Nat × State
  | [] => (0, s)
  | b :: bs =>
    let r := s.readBlk a n b
    let rs := r.2.readBlks a n bs
    (r.1 ||| rs.1, rs.2)

/-- A unit reads `n` bytes at `a`: the bytes, the flags of what it read, and the state after. -/
def State.unitRead (s : State) (a n : Nat) : Rd × State :=
  let r := s.readBlks a n (blksOf a n)
  (⟨r.2.mem.bytes a n, r.1⟩, r.2)

/-! ### Device writes (R425, R426, R430) -/

/-- Seal a block after a device write: its scribe, and every codeword in poison form when the flags carry poison. -/
def Mem.seal (m : Mem) (b gen prod flags : Nat) : Mem :=
  let m1 := if Flag.isPoison flags then (cwsOf (b * 4096) 4096).foldl (fun m c => m.poisonCw c) m else m
  m1.setScribe b (mkScribe gen prod (flags % 16) (crc32c (m1.bytes (b * 4096) 4096)))

/-- A device unit writes what a range covers of one block; part of a block is merged into the whole block as read and checked,
and the block is written whole (R426, Table 14-12). -/
def State.unitWriteBlk (s : State) (a : Nat) (bs : Bytes) (gen prod flags b : Nat) : State :=
  let lo := max a (b * 4096)
  let hi := min (a + bs.length) (b * 4096 + 4096)
  let part := (bs.drop (lo - a)).take (hi - lo)
  let r := if wholeBlk a bs.length b then (0, s.writeBytes lo part)
    else let r := s.checkBlk b; (r.1, r.2.onMem (fun m => m.putBytes lo part))
  let s1 := r.2.onMem (fun m => m.seal b gen prod (flags ||| r.1))
  s1.bump (diePage .scrb (prod / 2 ^ 14 % 4)) Reg.SCRB_FORMED_COUNT

def State.unitWriteBlks (s : State) (a : Nat) (bs : Bytes) (gen prod flags : Nat) : List Nat → State
  | [] => s
  | b :: rest => (s.unitWriteBlk a bs gen prod flags b).unitWriteBlks a bs gen prod flags rest

/-- A device unit writes a byte string: `gen` is its context's step tag, `prod` its producer identifier, `flags` those its
inputs and its own marks give. -/
def State.unitWrite (s : State) (a : Nat) (bs : Bytes) (gen prod flags : Nat) : State :=
  s.unitWriteBlks a bs gen prod flags (blksOf a bs.length)

/-- A block as it stands. -/
def Mem.image (m : Mem) (b : Nat) : BlkImg :=
  ⟨b, m.bytes (b * 4096) 4096, (upFrom (b * 64) 64).map (fun c => m.synd c), m.scribeOf b⟩
/-- Put a block back as it stood. -/
def Mem.restore (m : Mem) (i : BlkImg) : Mem :=
  ((i.chk.zipIdx.foldl (fun m c => m.setSynd (i.blk * 64 + c.2) c.1) m).putBytes (i.blk * 4096) i.data).setScribe i.blk i.scribe

/-- The queue engine moves one whole aligned block with its scribe (Table 14-9), which is checked again where it arrives: the flags
found, and the state after. -/
def State.moveBlk (s : State) (src dst : Nat) : Nat × State :=
  let r := s.checkBlk src
  let scr := r.2.mem.scribeOf src
  let data := r.2.mem.bytes (src * 4096) 4096
  let s0 := r.2.writeBytes (dst * 4096) data
  let s1 := if bitAt (scribeFlags scr) 4 || Flag.isPoison r.1 then s0
    else s0.bump (diePage .scrb (dieOf (dst * 4096))) Reg.SCRB_CHECK_COUNT
  if Flag.isPoison r.1 then
    (r.1, s1.onMem (fun m => ((cwsOf (dst * 4096) 4096).foldl (fun m c => m.poisonCw c) m).setScribe dst
      (mkScribe (scribeGen scr) (scribeProducer scr) (scribeFlags scr ||| 1) (scribeCrc scr))))
  else (r.1, s1.onMem (fun m => m.setScribe dst scr))

/-- Step tag of a scribe produced for a context (Table 14-6). -/
def State.stepTag (s : State) (c : Nat) : Nat :=
  match s.ctx c with
  | some x => x.steps % 256
  | none => 0

end Sys2Proof.Machine
end

