-- ==== Sys2Proof/Machine/PlanRead.lean ====
section
/-!
DEFINITION. Reading a running plan (R324 to R329): the segments of the step in progress, the word of a unit's stream in a plan
slot, the gates and swaps of the step, and the reserve beats of an array (R159).
-/

namespace Sys2Proof.Machine

/-- A plan that a context runs. -/
structure Live where
  c : Nat
  x : Ctx
  r : Run
  p : PlanObj
  sc : Sched
  deriving DecidableEq, Repr

def PlanImg.sched (g : PlanImg) (i : Nat) : Sched := nth ⟨[], [], [], [], []⟩ g.scheds i

def State.plan (s : State) (i : Nat) : Option PlanObj := look none s.plans i
def State.setPlan (s : State) (i : Nat) (p : Option PlanObj) : State := { s with plans := put none s.plans i p }

/-- The running plan of a context. -/
def State.live (s : State) (c : Nat) : Option Live :=
  match s.ctx c with
  | none => none
  | some x => match x.run with
    | none => none
    | some r => match s.plan r.plan with
      | none => none
      | some p => some ⟨c, x, r, p, p.img.sched r.sched⟩

def emptySegment : Segment := ⟨0, []⟩
def Sched.seg (sc : Sched) (i : Nat) : Segment := nth emptySegment sc.segs i

/-- Slots of a list of segments (R326). -/
def Sched.slotsOf (sc : Sched) : List Nat → Nat
  | [] => 0
  | i :: is => (sc.seg i).slots + sc.slotsOf is

/-- Slots of the step in progress. -/
def Live.stepSlots (l : Live) : Nat := l.sc.slotsOf l.r.stepSegs

/-- The words of a unit's streams in a segment. -/
def Segment.wordsOf (g : Segment) (kind die unit sub : Nat) : List (Nat × Nat) :=
  (g.streams.filter (fun t => t.kind == kind && t.die == die && t.unit == unit && t.sub == sub)).flatMap (fun t => t.words)

/-- The words of a unit over a list of segments, by plan slot from `base` on. -/
def Sched.wordsFrom (sc : Sched) (kind die unit sub : Nat) : Nat → List Nat → List (Nat × Nat)
  | _, [] => []
  | base, i :: is =>
    ((sc.seg i).wordsOf kind die unit sub).map (fun w => (base + w.1, w.2)) ++
      sc.wordsFrom kind die unit sub (base + (sc.seg i).slots) is

/-- A unit's words in the step in progress, by step slot. -/
def Live.words (l : Live) (kind die unit sub : Nat) : List (Nat × Nat) :=
  l.sc.wordsFrom kind die unit sub 0 l.r.stepSegs

/-- Step slots at which a record of the list, as (segment, offset), stands. -/
def Sched.marksFrom (sc : Sched) (segment offset : Nat) : Nat → List Nat → List Nat
  | _, [] => []
  | base, i :: is =>
    (if i = segment then [base + offset] else []) ++ sc.marksFrom segment offset (base + (sc.seg i).slots) is

/-- The inner gate records of the step in progress with their step slots (kind 0 stands only at the step's end, R326). -/
def Live.gateMarks (l : Live) : List (Nat × GateRec) :=
  l.sc.gates.flatMap (fun g => if g.kind = 0 then []
    else (l.sc.marksFrom g.segment g.offset 0 l.r.stepSegs).map (fun m => (m, g)))

/-- The swap records of the step in progress with their step slots. -/
def Live.swapMarks (l : Live) : List (Nat × SwapRec) :=
  l.sc.swaps.flatMap (fun w => (l.sc.marksFrom w.segment w.offset 0 l.r.stepSegs).map (fun m => (m, w)))

/-- Smallest member of a list that is above `a`, at most `top`. -/
def nextAbove (a : Int) (top : Nat) (l : List Nat) : Nat :=
  l.foldl (fun (acc m : Nat) => if decide (a < (m : Int)) && decide (m < acc) then m else acc) top

/-- Step slot of the first gate after the one the plan last left; the step-boundary gate stands at the step's end. -/
def Live.nextGate (l : Live) : Nat :=
  nextAbove l.r.lastGate l.stepSlots ((l.gateMarks.map (fun m => m.1)) ++ (l.swapMarks.map (fun m => m.1)))

/-- Is the plan between two gates of a step, with `slot` between them? -/
def Live.between (l : Live) (slot : Nat) : Bool :=
  l.r.inStep && l.r.gate.isNone && l.r.lastGate ≤ slot && slot < l.nextGate

/-- The word that a unit's stream holds in a step slot. -/
def Live.wordAt (l : Live) (kind die unit sub slot : Nat) : Option Nat :=
  ((l.words kind die unit sub).find? (fun w => w.1 == slot)).map (fun w => w.2)

/-- The word that a unit meets in a step slot while the plan runs through that slot. -/
def Live.wordNow (l : Live) (kind die unit sub slot : Nat) : Option Nat :=
  if l.between slot then l.wordAt kind die unit sub slot else none

/-- Fabric slot in which a step slot of the running plan falls (R307). -/
def Live.fabSlot (l : Live) (slot : Nat) : Nat := l.r.fslot + (slot - l.r.baseSlot)

/-- The same of a slot counted from before the step in progress (R522). -/
def Live.fabSlotAt (l : Live) (slot : Int) : Nat := ((l.r.fslot : Int) + (slot - (l.r.baseSlot : Int))).toNat

/-- Fabric slots of the beat before the pass of step slot `slot`, in which its segment comes (R140, R141), when the plan runs through
that beat: of the first beat of a step, the last slots before the gate that opened the step. -/
def Live.beatBefore (l : Live) (slot : Nat) : Option (List Nat) :=
  if 16 ≤ slot then (if l.between (slot - 16) then some (upFrom (l.fabSlot (slot - 16)) 16) else none)
  else if l.between slot then some (if l.r.leftAt < 16 then [] else upFrom (l.r.leftAt - 16) 16)
  else none

/-! ### The cut of a snapshot (R315, R317) -/

/-- The pages of a bent whose units the fabric schedules. -/
def cutPages (die bent : Nat) : List Page :=
  [unitPage .ledg die bent, unitPage .cal die bent] ++
    (upFrom 0 4).flatMap (fun a => [arrPage .arr die bent a, arrPage .shim die bent a])

/-- Has a page taken the copy of the snapshot in progress? -/
def State.copied (s : State) (p : Page) : Bool := (s.rd p Reg.PAGE_SNAP_SEQ).toNat == s.snap.seq

/-- Does work of fabric slot `n` come after the named slot of a snapshot that one of the pages has not copied yet? A scheduled unit
copies before any update of a later slot, and a unit whose clock was gated before any counter changes. -/
def State.cutHolds (s : State) (ps : List Page) (n : Nat) : Bool :=
  s.snap.busy && s.snap.slot < n && ps.any (fun p => !s.copied p)

/-- The running plan of the context that owns a bent, with the word of the bent's unit in a step slot, as far as no snapshot holds
the bent back. -/
def State.bentWord (s : State) (kind die bent sub slot : Nat) : Option (Live × Nat) :=
  match s.owner die bent with
  | none => none
  | some c => match s.live c with
    | none => none
    | some l =>
      if s.cutHolds (cutPages die bent) (l.fabSlot slot) then none else (l.wordNow kind die bent sub slot).map (fun w => (l, w))

/-- Step slots of the array's reserve beats (array words of kind 2), ascending. -/
def Live.reserve (l : Live) (die bent a : Nat) : List Nat :=
  ((l.words 1 die bent a).filter (fun w => bits w.2 63 62 == 2)).map (fun w => w.1)

/-- Step slot of the array's next plane swap after `slot`, or the step's end. -/
def Live.nextSwap (l : Live) (die bent a : Nat) (slot : Int) : Nat :=
  nextAbove slot l.stepSlots ((l.swapMarks.filter (fun m =>
    m.2.kind == 0 && m.2.die == die && m.2.unit == bent && bitAt m.2.arrays a)).map (fun m => m.1))

/-- Change the run of a context. -/
def State.onRun (s : State) (c : Nat) (f : Run → Run) : State := s.onCtx c (fun x => { x with run := x.run.map f })

/-- Step slot of the gate that opens an optimiser plan's update phase: its step's first inner gate record (R254). -/
def Live.updateSlot (l : Live) : Nat := nextAbove (-1) l.stepSlots (l.gateMarks.map (fun m => m.1))
/-- Does a step slot lie in the scan phase of an optimiser plan? -/
def Live.scanning (l : Live) (slot : Nat) : Bool := l.p.img.optimiser && decide (slot < l.updateSlot)

/-- What the step in progress of an optimiser plan is about to overwrite is kept, the first time (R256). -/
def State.keepBlks (s : State) (l : Live) (bs : List Nat) : State :=
  if !l.p.img.optimiser then s
  else s.onRun l.c (fun r => { r with
    undo := r.undo ++ ((bs.filter (fun b => !r.undo.any (fun i => i.blk == b))).map (fun b => s.mem.image b)) })

/-- Bents that a context owns, as keys. -/
def State.bentsOf (s : State) (c : Nat) : List Nat := (s.owners.filter (fun e => e.2 == some c)).map (fun e => e.1)

/-! ### The records of a gate (R326, R329) -/

/-- Step slot of the gate the plan has arrived at. -/
def Live.slot (l : Live) : Nat := l.r.gate.getD 0

/-- The gate records at the plan's gate. The opening gate of a PLAN_RUN has none. -/
def Live.gateRecs (l : Live) : List GateRec :=
  if !l.r.inStep then []
  else ((l.gateMarks.filter (fun m => m.1 == l.slot)).map (fun m => m.2)) ++
    (if l.r.boundary then l.sc.gates.filter (fun g => g.kind == 0 && some g.segment == l.r.stepSegs.getLast?) else [])

def Live.gateSwaps (l : Live) : List SwapRec :=
  if !l.r.inStep then [] else (l.swapMarks.filter (fun m => m.1 == l.slot)).map (fun m => m.2)

/-- The plane swaps at the plan's gate, one for each array. -/
def Live.planeSwaps (l : Live) : List (SwapRec × Nat) :=
  (l.gateSwaps.filter (fun w => w.kind == 0)).flatMap (fun w =>
    ((upFrom 0 4).filter (fun a => bitAt w.arrays a)).map (fun a => (w, a)))
def Live.bankSwaps (l : Live) : List SwapRec := l.gateSwaps.filter (fun w => w.kind == 1)

/-- The plan memory binding `i` as (base, length) (R331). -/
def Live.membind (l : Live) (i : Nat) : Nat × Nat := nth (0, 0) l.p.membinds i

/-! ### Flits on their way to and from a router (R293, R296, R298) -/

def State.router (s : State) (die bent : Nat) : Router := look Router.reset s.fab.routers (bentKey die bent)
def State.setRouter (s : State) (die bent : Nat) (x : Router) : State :=
  { s with fab := { s.fab with routers := put Router.reset s.fab.routers (bentKey die bent) x } }

/-- Slots completed by a router: its number of the slot it works on (Table 10-11). -/
def State.slotOf (s : State) (die bent : Nat) : Nat := s.fab.base + (s.router die bent).slot

/-- Put flits on an input of a router, one for each slot from `slot` on. -/
def State.stage (s : State) (die bent port slot : Nat) : List Flit → State
  | [] => s
  | f :: fs => ({ s with fab := { s.fab with
      staged := (bentKey die bent, port, slot, f) :: s.fab.staged.filter (fun e => !(e.1 == bentKey die bent && e.2.1 == port &&
        e.2.2.1 == slot)) } } : State).stage die bent port (slot + 1) fs

/-- A sending word of fabric slot `slot` has been carried out: the router need not wait for it any more (R293). -/
def State.give (s : State) (die bent port slot : Nat) : State :=
  { s with fab := { s.fab with given := (bentKey die bent, port, slot) :: s.fab.given } }
def State.isGiven (s : State) (die bent port slot : Nat) : Bool := s.fab.given.contains (bentKey die bent, port, slot)

/-- The flit that a router sent to a unit on an output in a slot. -/
def State.landedAt (s : State) (die bent port slot : Nat) : Option Flit :=
  (s.fab.landed.find? (fun e => e.1 == bentKey die bent && e.2.1 == port && e.2.2.1 == slot)).map (fun e => e.2.2.2)

/-- Has the router completed every slot below `n`? -/
def State.routerPast (s : State) (die bent n : Nat) : Bool := n ≤ s.slotOf die bent

/-- Routers for which the step in progress has words. -/
def Live.routers (l : Live) : List (Nat × Nat) :=
  l.r.stepSegs.flatMap (fun i => ((l.sc.seg i).streams.filter (fun t => t.kind == 0)).map (fun t => (t.die, t.unit)))

/-- Have the plan's routers completed every slot below `n`? A dead router completes none. -/
def State.routersPast (s : State) (l : Live) (n : Nat) : Bool :=
  l.routers.all (fun u => (s.knotDie u.1).routers.contains u.2 || s.routerPast u.1 u.2 n)

/-- Has none of the plan's routers begun slot `n`? -/
def State.routersBefore (s : State) (l : Live) (n : Nat) : Bool := l.routers.all (fun u => s.slotOf u.1 u.2 ≤ n)

/-- The flits that a unit takes in a list of slots; the data of an empty one is a free value. -/
def State.takeFlits (s : State) (die bent port : Nat) (slots : List Nat) : List Flit :=
  slots.map (fun n => (s.landedAt die bent port n).getD
    ⟨Config.emptyFlit (bentKey die bent) port n % 2 ^ 1024, false, false, 0, 0, 0, []⟩)

/-- The 32-bit words of a flit. -/
def Flit.words (f : Flit) : List W32 := (upFrom 0 32).map (fun i => BitVec.ofNat 32 (f.data / 2 ^ (32 * i)))

/-- The flags that flits bring (R300, R301, R430): what they carry, poison, and bit 4 for a late one. -/
def flitFlags (fs : List Flit) : Nat :=
  fs.foldl (fun m f => m ||| (f.flags % 16) ||| (b2n f.poison * Flag.poison) ||| (b2n f.late * 16)) 0

/-- A transfer as a unit takes it: the flits of operand A and those of operand B. -/
def fabIn (fa fb : List Flit) : FabIn :=
  ⟨fa.flatMap Flit.words, fb.flatMap Flit.words, flitFlags (fa ++ fb), (fa.head?.map (fun f => f.count)).getD 0⟩

/-- Flits as they stand in a unit's SRAM after the read of it that a transfer takes (R411). -/
def sramFlits (x : SramRead) (fs : List Flit) : List Flit :=
  fs.map (fun f => { f with poison := f.poison || sramLost x, flags := f.flags ||| sramFlags x })

/-- The transfer of `n` flits, one for each slot from fabric slot `slot` on. -/
def State.fabTake (s : State) (die bent port slot n : Nat) : FabIn := fabIn (s.takeFlits die bent port (upFrom slot n)) []

/-- Router and output that face a ring port of the die: port c below 16 is N of row 0, the others S of row 7 (Table 10-2). -/
def ringBent (port : Nat) : Nat := if port < 16 then port else 112 + (port - 16)
def ringIn (port : Nat) : Nat := if port < 16 then 0 else 2

/-- The flits that arrive on a ring port in a list of slots, one slot after its router sent them (Table 10-1). -/
def State.ringFlits (s : State) (die port : Nat) (slots : List Nat) : List Flit :=
  s.takeFlits die (ringBent port) (ringIn port) (slots.map (fun n => n - 1))
/-- Have the flits of every slot below `n` arrived on a ring port? -/
def State.ringPast (s : State) (die port n : Nat) : Bool := s.routerPast die (ringBent port) (n - 1)

/-- Flits of a row of FP32 values: 32 values each, the last one filled with zeros, with the flags and the pass count that travel
with the row. -/
def flitsOf (flags count : Nat) : Nat → List Nat → List Flit
  | 0, _ => []
  | n + 1, vs => ⟨leNat ((vs.take 32).flatMap (fun v => leBytes 4 v)), Flag.isPoison flags, false, 0, flags, count, []⟩ ::
      flitsOf flags count n (vs.drop 32)

/-- Count an event against the context's gates (R165). -/
def State.strike (s : State) (c t : Nat) : State := s.onCtx c (fun x => { x with strikes := x.strikes ++ [t] })

end Sys2Proof.Machine
end

