-- ==== Sys2Proof/Machine/Ledger.lean ====
section
/-!
DEFINITION. The bench and the ledger tiles of a bent (R173 to R189): rows and their flags, the operations of Table 06-2, the
arrival of a shim partial, and host writes.
-/

namespace Sys2Proof.Machine

/-! ### The bench address space (Table 06-1) -/

abbrev ledgBase : Nat := 0x100000
/-- The bench address that stands for the fabric in a ledger word (Table 11-3). -/
abbrev fabAddr : Nat := 0x1FFFFF

/-- Index of a row, 32 × tile + row, and its bench address. -/
def rowKey (t r : Nat) : Nat := 32 * t + r
def rowAddr (k : Nat) : Nat := ledgBase + k * 0x800

def Bent.row (b : Bent) (k : Nat) : LRow := look LRow.closed b.rows k
def Bent.setRow (b : Bent) (k : Nat) (x : LRow) : Bent := { b with rows := put LRow.closed b.rows k x }
def Bent.word (b : Bent) (w : Nat) : W32 := look 0 b.bench w
/-- `n` 32-bit words from word index `w` on. -/
def Bent.vec (b : Bent) (w n : Nat) : List Nat := (upFrom w n).map (fun i => (b.word i).toNat)
/-- Store 32-bit words from word index `w` on. -/
def Bent.putVec (b : Bent) (w : Nat) : List Nat → Bent
  | [] => b
  | x :: xs => ({ b with bench := put 0 b.bench w (BitVec.ofNat 32 x), counts := put 0 b.counts w 0 } : Bent).putVec (w + 1) xs

/-- Words of a row. -/
def Bent.rowVec (b : Bent) (k : Nat) : List Nat := b.vec (rowAddr k / 4) 512
def Bent.putRow (b : Bent) (k : Nat) (l : List Nat) : Bent := b.putVec (rowAddr k / 4) l

/-- Flags of ledger block `g` (counted over all tiles): the OR of those of its two rows (R188). -/
def Bent.ledgFlags (b : Bent) (g : Nat) : Nat := (b.row (2 * g)).flags ||| (b.row (2 * g + 1)).flags
/-- Does the block hold an open row? -/
def Bent.ledgOpen (b : Bent) (g : Nat) : Bool := (b.row (2 * g)).isOpen || (b.row (2 * g + 1)).isOpen
/-- The flags with which a ledger block is delivered: tentative while a row of it is open (R183). -/
def Bent.deliverFlags (b : Bent) (g : Nat) : Nat := b.ledgFlags g ||| (if b.ledgOpen g then Flag.tentative else 0)
/-- The flags with which a row is delivered: its own, and tentative while it is open (R183). -/
def LRow.deliver (r : LRow) : Nat := r.flags ||| (if r.isOpen then Flag.tentative else 0)

/-- Bench blocks that `n` bytes at `a` touch. -/
def benchBlks (a n : Nat) : List Nat :=
  if n = 0 then [] else (upFrom (a / 4096) ((a + n - 1) / 4096 + 1 - a / 4096)).filter (fun g => g < 256)
/-- Ledger rows that `n` bytes at `a` touch. -/
def rowsOf (a n : Nat) : List Nat :=
  if n = 0 then [] else ((upFrom (a / 2048) ((a + n - 1) / 2048 + 1 - a / 2048)).filter (fun g => 512 ≤ g && g < 1024)).map
    (fun g => g - 512)

/-- Flags of the bench blocks and of the ledger rows that `n` bytes at bench address `a` touch: a row brings its own and none of
its block's other row (R188). -/
def Bent.rangeFlags (b : Bent) (a n : Nat) : Nat :=
  (rowsOf a n).foldl (fun f k => f ||| (b.row k).deliver) ((benchBlks a n).foldl (fun f g => f ||| look 0 b.bflags g) 0)

/-- Set marks on a bench block, or on both rows of a ledger block. -/
def Bent.markBlk (b : Bent) (f g : Nat) : Bent :=
  if g < 256 then { b with bflags := put 0 b.bflags g (look 0 b.bflags g ||| f) }
  else
    let k := 2 * (g - 256)
    (b.setRow k { b.row k with flags := (b.row k).flags ||| f }).setRow (k + 1)
      { b.row (k + 1) with flags := (b.row (k + 1)).flags ||| f }

/-- Set marks on a row. -/
def Bent.markRow (b : Bent) (f k : Nat) : Bent := b.setRow k { b.row k with flags := (b.row k).flags ||| f }

/-- Mark every bench block and ledger row that `n` bytes at `a` touch. -/
def Bent.markRange (b : Bent) (a n f : Nat) : Bent :=
  (rowsOf a n).foldl (fun b k => b.markRow f k) ((benchBlks a n).foldl (fun b g => b.markBlk f g) b)

end Sys2Proof.Machine

namespace Sys2Proof

/-- Flags that a fabric transfer brings: a late flit marks bound exceeded (R301). -/
def FabIn.marks (x : FabIn) : Nat := x.flags % 16 ||| (if Machine.bitAt x.flags 4 then Machine.Flag.bound else 0)

/-- An operand with what the read of the SRAM it comes from adds. -/
def FabIn.seen (f : FabIn) (x : SramRead) : FabIn := { f with flags := f.flags ||| Machine.sramFlags x }
/-- The values of a fabric transfer as `n` bit patterns; values that did not come read as +0. -/
def FabIn.valsA (x : FabIn) (n : Nat) : List Nat := (Machine.upFrom 0 n).map (fun i => (Machine.nth (0 : W32) x.a i).toNat)
def FabIn.valsB (x : FabIn) (n : Nat) : List Nat := (Machine.upFrom 0 n).map (fun i => (Machine.nth (0 : W32) x.b i).toNat)

end Sys2Proof

namespace Sys2Proof.Machine

/-! ### Sticky bits and the pass limit -/

abbrev ledgPage (die bent : Nat) : Page := unitPage .ledg die bent

/-- Table 06-5: the sticky bit (tile number, or 16 for the vector unit), the counter and the event of each case met. -/
def State.sticky (s : State) (die bent bit : Nat) (sat nonfin : Bool) : State :=
  let p := ledgPage die bent
  let s1 := if sat then ((s.wr p Reg.LEDG_SAT (s.rd p Reg.LEDG_SAT ||| BitVec.ofNat 32 (2 ^ bit))).bump p
    Reg.LEDG_SAT_COUNT).raise p 1 else s
  if nonfin then ((s1.wr p Reg.LEDG_NONFINITE (s1.rd p Reg.LEDG_NONFINITE ||| BitVec.ofNat 32 (2 ^ bit))).bump p
    Reg.LEDG_NONFINITE_COUNT).raise p 2 else s1

/-- Add to a row's pass count (R185, R186): the row, and whether the accumulation has just reached 257. -/
def LRow.addPasses (r : LRow) (n : Nat) : LRow × Bool :=
  let c := min (r.passCount + n) 511
  if 257 ≤ c && !r.limitHit then
    ({ r with passCount := c, limitHit := true, flags := r.flags ||| Flag.bound }, true)
  else ({ r with passCount := c }, false)

/-- Report a pass limit (R186). -/
def State.limitHit (s : State) (die bent : Nat) (b : Bool) : State :=
  if b then (s.bump (ledgPage die bent) Reg.LEDG_PLIMIT_COUNT).raise (ledgPage die bent) 4 else s

/-- Add `n` to the pass count of row `k`. -/
def State.rowPasses (s : State) (die bent k n : Nat) : State :=
  let b := s.bent die bent
  let r := (b.row k).addPasses n
  (s.setBent die bent (b.setRow k r.1)).limitHit die bent r.2

/-- OR flags into row `k`. -/
def State.rowFlags (s : State) (die bent k f : Nat) : State :=
  let b := s.bent die bent
  s.setBent die bent (b.setRow k { b.row k with flags := (b.row k).flags ||| f })

/-- Sum of a column and an addend; a column without addend keeps every bit. -/
def colAdd (old : Nat) (x : Option Nat) : FRes :=
  match x with
  | some v => fAdd old v
  | none => ⟨old, false, false⟩

/-- Add values to the columns of row `k` (R175, R179), with the marks of Table 06-5. -/
def State.rowAdd (s : State) (die bent k : Nat) (xs : List (Option Nat)) : State :=
  let b := s.bent die bent
  let rs := List.zipWith colAdd (b.rowVec k) xs
  let sat := rs.any (fun r => r.sat)
  let nonfin := rs.any (fun r => r.nonfin)
  let b1 := b.putRow k (rs.map (fun r => r.bits))
  let b2 := if sat || nonfin then b1.setRow k { b1.row k with flags := (b1.row k).flags ||| Flag.bound } else b1
  (s.setBent die bent b2).sticky die bent (k / 32) sat nonfin

/-! ### The operations of Table 06-2 -/

/-- What a ledger word moves in: 512 values, flags and a pass count, from the fabric or from a bench address (a whole ledger
row brings its pass count). -/
structure LSrc where
  vals : List Nat
  flags : Nat
  count : Nat
  deriving DecidableEq, Repr

def State.ledgSrc (s : State) (die bent : Nat) (l : Live) (slot addr : Nat) : LSrc :=
  if addr = fabAddr then
    let x := s.fabTake die bent 4 (l.fabSlot slot) 16
    ⟨x.valsA 512, x.marks, x.count⟩
  else
    let b := s.bent die bent
    ⟨b.vec (addr / 4) 512, b.rangeFlags addr 2048,
      if ledgBase ≤ addr && addr % 0x800 == 0 then (b.row ((addr - ledgBase) / 0x800)).passCount else 0⟩

/-- Open a row (R177): a new epoch, and the state of a fresh accumulation, its count of outstanding corrections 0 (DESIGN CHOICE, log
entry 82). -/
def LRow.fresh (r : LRow) (flags : Nat) : LRow :=
  ⟨true, (r.epoch + 1) % 256, 0, [], 0, flags, false⟩

/-- Row, bench address and block count of a ledger word (Table 11-3). -/
def ledgRow (w : Nat) : Nat := rowKey (bits w 59 56) (bits w 55 51)
def ledgAddr (w : Nat) : Nat := bits w 20 0
def ledgBlocks (w : Nat) : Nat := bits w 50 48

/-- Rows that a ledger word acts on: one, or those of the blocks of a STORE. -/
def ledgRows (w : Nat) : List Nat :=
  if bits w 63 60 = 5 then upFrom (ledgRow w / 2 * 2) (2 * ledgBlocks w) else [ledgRow w]

/-! ### The order of Table 06-3 (R178, R179) -/

/-- Step slot in which the partial of a pass reaches its row: the end of its beat + 2 (Table 05-1). -/
def Pass.due (p : Pass) : Int := p.slot + 47

/-- Field `row` of an array word as a row. -/
def Pass.rowK (p : Pass) : Nat := rowKey (bits p.word 51 48) (bits p.word 47 43)
def Pass.index (p : Pass) : Nat := bits p.word 42 34

/-- Passes of a bent that have been driven for a row and have not been written, as (array, pass). -/
def State.rowPending (s : State) (die bent c k : Nat) : List (Nat × Pass) :=
  (upFrom 0 4).flatMap (fun a => ((s.arr die bent a).passes.filter (fun p =>
    p.stage != .quantised && p.ctx == c && p.score.isNone && p.rowK == k)).map (fun p => (a, p)))

/-- Have the words of a bent's ledger stream that stand before step slot `d` since the last gate been carried out? -/
def State.ledgPast (s : State) (l : Live) (die bent : Nat) (d : Int) : Bool :=
  (l.words 2 die bent 0).all (fun w => w.1 < l.r.lastGate || decide (d ≤ (w.1 : Int)) || bits w.2 63 60 == 0 || 7 ≤ bits w.2 63 60 ||
    l.fabSlot w.1 < (s.bent die bent).ledgAt)

/-- May the ledger word of a step slot act: it has not acted, the words before it have, the partials that reach its rows by then
are in (Table 06-3), and a transfer that it takes from the fabric has come? -/
def State.ledgTurn (s : State) (die bent : Nat) (l : Live) (slot w : Nat) : Bool :=
  decide ((s.bent die bent).ledgAt ≤ l.fabSlot slot) && s.ledgPast l die bent slot &&
    (ledgRows w).all (fun k => (s.rowPending die bent l.c k).all (fun p => decide ((slot : Int) < p.2.due))) &&
    (ledgAddr w != fabAddr || !(bits w 63 60 == 2 || bits w 63 60 == 3) || s.routerPast die bent (l.fabSlot slot + 16))

/-- A word of a bent's ledger stream has been carried out. -/
def State.ledgDone (s : State) (die bent n : Nat) : State := s.setBent die bent { s.bent die bent with ledgAt := n }

/-- Run `f` on the ledger word of the bent in a step slot, when its operation is `op` and its turn has come. -/
def State.onLedg (s : State) (die bent slot op : Nat) (f : State → Live → Nat → State) : State :=
  match s.bentWord 2 die bent 0 slot with
  | some (l, w) =>
    if bits w 63 60 = op && s.ledgTurn die bent l slot w then (f s l w).ledgDone die bent (l.fabSlot slot + 1) else s
  | none => s

def execOpenZero (die bent slot : Nat) (s : State) : Host.Outcome State Fault Refusal :=
  ok (s.whenUp (fun s => s.onLedg die bent slot 1 (fun s _ w =>
    let b := s.bent die bent
    let k := ledgRow w
    s.setBent die bent ((b.putRow k (List.replicate 512 0)).setRow k ((b.row k).fresh 0)))))

/-- Load a row and open it. -/
def State.openLoad (s : State) (die bent k : Nat) (src : LSrc) : State :=
  let b := s.bent die bent
  (s.setBent die bent ((b.putRow k src.vals).setRow k ((b.row k).fresh src.flags))).rowPasses die bent k src.count

/-- What the read of a word's source finds: a transfer from the fabric reads no SRAM. -/
def ledgSram (w : Nat) (x : SramRead) : SramRead := if ledgAddr w = fabAddr then .clean else x

/-- A source vector with what the reads of SRAM words it comes through add. -/
def LSrc.seen (x : LSrc) (rs : List SramRead) : LSrc := { x with flags := rs.foldl (fun f r => f ||| sramFlags r) x.flags }

/-- OPEN_LOAD; `sram` is what the read of the data at a bench or ledger address finds, `scr` that of the flags kept with it, and
`row` that of the row's own record, whose epoch and flags the opening renews. -/
def execOpenLoad (die bent slot : Nat) (sram scr row : SramRead) (s : State) : Host.Outcome State Fault Refusal :=
  ok (s.whenUp (fun s => s.onLedg die bent slot 2 (fun s l w =>
    let rs := [ledgSram w sram, ledgSram w scr, row]
    (s.sramsSeen (ledgPage die bent) (some l.c) rs).openLoad die bent (ledgRow w)
      ((s.ledgSrc die bent l slot (ledgAddr w)).seen rs))))

/-- Add a vector to a row, open or closed (R175). A poisoned addend is an operand the context consumes (R433). -/
def State.addIn (s : State) (die bent c k : Nat) (src : LSrc) : State :=
  let s1 := ((s.rowAdd die bent k (src.vals.map some)).rowFlags die bent k src.flags).rowPasses die bent k src.count
  if Flag.isPoison src.flags then s1.consumePoison (ledgPage die bent) c 0 else s1

/-- ADD_IN; `sram` is what the read of a bench or ledger address finds, and `row` that of the row to which it adds. -/
def execAddIn (die bent slot : Nat) (sram row : SramRead) (s : State) : Host.Outcome State Fault Refusal :=
  ok (s.whenUp (fun s => s.onLedg die bent slot 3 (fun s l w =>
    let rs := [ledgSram w sram, row]
    (s.sramsSeen (ledgPage die bent) (some l.c) rs).addIn die bent l.c (ledgRow w)
      ((s.ledgSrc die bent l slot (ledgAddr w)).seen rs))))

/-- Record whether a block was last delivered while a row of it was open (Table 06-11). -/
def Bent.setTent (b : Bent) (g : Nat) (v : Bool) : Bent := { b with tent := put false b.tent g v }

/-- READ delivers the row with its flags and pass count, on the L input of its router from the word's slot on where the word
names the fabric, to the vector unit otherwise; the row is unchanged. -/
def execLedgerRead (die bent slot : Nat) (sram : SramRead) (s : State) : Host.Outcome State Fault Refusal :=
  ok (s.whenUp (fun s => s.onLedg die bent slot 4 (fun s l w =>
    let b := s.bent die bent
    let k := ledgRow w
    let r := b.row k
    let s1 := (s.sramSeen (ledgPage die bent) sram (some l.c)).setBent die bent (b.setTent (k / 2) r.isOpen)
    if ledgAddr w = fabAddr then
      (s1.stage die bent 4 (l.fabSlot slot) (flitsOf (r.deliver ||| sramFlags sram) r.passCount 16 (b.rowVec k))).give die bent 4
        (l.fabSlot slot)
    else s1)))

/-- Mark the rows of a list that have corrections outstanding (R183); the flag says that one had. -/
def Bent.early (b : Bent) : List Nat → Bent × Bool
  | [] => (b, false)
  | k :: ks =>
    let b1 := if (b.row k).outstanding = 0 then b
      else b.setRow k { b.row k with flags := (b.row k).flags ||| Flag.bound }
    let r := b1.early ks
    (r.1, (b.row k).outstanding != 0 || r.2)

/-- Report an early close (R183). -/
def State.earlyClose (s : State) (die bent : Nat) (b : Bool) : State :=
  if b then (s.bump (ledgPage die bent) Reg.LEDG_EARLY_CLOSE_COUNT).raise (ledgPage die bent) 3 else s

/-- Copy ledger block `g` to the bench block at `d` (in blocks), with its flags (R174). Above 0x1F_FFFF nothing is addressable
(Table 06-1); the plan loader refuses such a word. -/
def Bent.storeBlk (b : Bent) (g d : Nat) : Bent :=
  let f := b.deliverFlags g
  let b1 := ((if d < 512 then b.putVec (d * 1024) (b.vec (rowAddr (2 * g) / 4) 1024) else b)).setTent g (b.ledgOpen g)
  if 512 ≤ d then b1
  else if d < 256 then { b1 with bflags := put 0 b1.bflags d f } else b1.markBlk f d

/-- Store blocks one after the other; a block that leaves for the fabric changes nothing but the record of its delivery. -/
def Bent.storeBlks (b : Bent) (g d : Nat) (toFab : Bool) : Nat → Bent
  | 0 => b
  | n + 1 =>
    (if toFab then b.setTent g (b.ledgOpen g) else b.storeBlk g d).storeBlks (g + 1) (d + 1) toFab n

/-- The 32 flits of ledger block `g`, with two bits of its scribe in the sideband of each (R174, Table 14-9), the block's flags, and
the pass count of the row that each comes from. -/
def Bent.blockFlits (b : Bent) (gen prod g : Nat) : List Flit :=
  let f := b.deliverFlags g
  let bs := (b.vec (rowAddr (2 * g) / 4) 1024).flatMap (leBytes 4)
  let scr := (mkScribe gen prod f (crc32c bs)).toNat
  (upFrom 0 32).map (fun i => ⟨leNat ((bs.drop (128 * i)).take 128), Flag.isPoison f, false, scr / 4 ^ i % 4, f,
    (b.row (2 * g + i / 16)).passCount, []⟩)

/-- STORE sends `n` whole blocks, each with its scribe: to bench, or for another bent or the I/O ring on the L input of its
router, from the word's slot on. -/
def State.ledgStore (s : State) (die bent : Nat) (l : Live) (slot k addr n : Nat) : State :=
  let e := (s.bent die bent).early (upFrom (k / 2 * 2) (2 * n))
  let s1 := ((s.setBent die bent (e.1.storeBlks (k / 2) (addr / 4096) (addr = fabAddr) n)).earlyClose die bent e.2).bumpN
    (diePage .scrb die) Reg.SCRB_FORMED_COUNT n
  if addr = fabAddr then (s1.stage die bent 4 (l.fabSlot slot)
    ((upFrom (k / 2) n).flatMap (fun g => e.1.blockFlits (s.stepTag l.c) (producer die 0 bent) g))).give die bent 4 (l.fabSlot slot)
  else s1

def execLedgerStore (die bent slot : Nat) (s : State) : Host.Outcome State Fault Refusal :=
  ok (s.whenUp (fun s => s.onLedg die bent slot 5 (fun s l w =>
    s.ledgStore die bent l slot (ledgRow w) (ledgAddr w) (ledgBlocks w))))

/-- CLOSE ends the accumulation; the row keeps its values, flags and pass count. -/
def State.ledgClose (s : State) (die bent k : Nat) : State :=
  let e := (s.bent die bent).early [k]
  (s.setBent die bent (e.1.setRow k { e.1.row k with isOpen := false })).earlyClose die bent e.2

def execLedgerClose (die bent slot : Nat) (s : State) : Host.Outcome State Fault Refusal :=
  ok (s.whenUp (fun s => s.onLedg die bent slot 6 (fun s _ w => s.ledgClose die bent (ledgRow w))))

/-- An abandoned step closes every open row of a bent and forms no scribe (R184). -/
def Bent.closeAll (b : Bent) : Bent := { b with
  rows := (b.rows.map (fun e => (e.1, { e.2 with isOpen := false }))).filter (fun e => e.2 != LRow.closed) }

/-! ### Shim partials (R163, R177, R179, R185) -/

/-- A partial on its way to a row: its row, pass index, epoch, flags, and its values by line; a count-only partial has none. -/
structure Partial where
  row : Nat
  index : Nat
  epoch : Nat
  flags : Nat
  vals : Option (List (Option Nat))
  deriving DecidableEq, Repr

/-- A partial reaches the ledger: added to an open row of its epoch, discarded as late otherwise. -/
def State.addPartial (s : State) (die bent : Nat) (x : Partial) : State :=
  let r := (s.bent die bent).row x.row
  let p := ledgPage die bent
  if !r.isOpen || r.epoch != x.epoch then (s.bump p Reg.LEDG_LATE_COUNT).raise p 3
  else
    let s1 := (s.bump p Reg.LEDG_PARTIAL_COUNT).rowFlags die bent x.row x.flags
    let s2 := if r.seen.contains x.index then s1
      else
        let b := s1.bent die bent
        (s1.setBent die bent (b.setRow x.row { b.row x.row with seen := insertAsc x.index (b.row x.row).seen })).rowPasses
          die bent x.row 1
    match x.vals with
    | none => s2
    | some v => s2.rowAdd die bent x.row v

/-- Change the outstanding count of a row that is still in its epoch (R182): corrections granted before an OPEN no longer change it
(DESIGN CHOICE, log entry 82). -/
def State.outstanding (s : State) (die bent k epoch : Nat) (f : Nat → Nat) : State :=
  let b := s.bent die bent
  let r := b.row k
  if r.epoch = epoch then s.setBent die bent (b.setRow k { r with outstanding := f r.outstanding }) else s

/-! ### Host writes (R189) -/

/-- Does a tile hold an open row (LEDG_STATUS.held)? -/
def Bent.held (b : Bent) (t : Nat) : Bool := (upFrom (32 * t) 32).any (fun k => (b.row k).isOpen)

def execLedgerHostWrite (die bent addr : Nat) (value : BitVec 32) (s : State) : Host.Outcome State Fault Refusal :=
  ok (s.hostPage (unitPage .bent die bent) (fun s =>
    if 0x200000 ≤ addr then s
    else
      let b := s.bent die bent
      if ledgBase ≤ addr && b.held ((addr - ledgBase) / 0x10000) then
        (s.bump (ledgPage die bent) Reg.LEDG_HOST_DROP_COUNT).raise (ledgPage die bent) 5
      else s.setBent die bent (b.putVec (addr / 4) [value.toNat])))

end Sys2Proof.Machine
end

