-- ==== Sys2Proof/Machine/Quant.lean ====
section
/-!
DEFINITION. Cell values (R67 to R69), the scale rules of Table 05-2, quantising of input segments (R73), outliers (R74), the
second-pass vector (R75) and the splitting of wide operands (R81).
-/

namespace Sys2Proof.Machine

/-! ### Cell values -/

/-- Magnitudes of the E2M1 cell set by code (Table 03-1). -/
def e2m1Mag (c : Nat) : Nat := nth 0 [0, 1, 2, 3, 4, 6, 8, 12] c

/-- Cell value of a nibble as INT4. -/
def int4Cell (n : Nat) : Int := signedOf 4 n
/-- Cell value of a nibble as E2M1. -/
def e2m1Cell (n : Nat) : Int := if bitAt n 3 then -(e2m1Mag (n % 8) : Int) else e2m1Mag (n % 8)
/-- Cell value of the low slice of a wide weight, 0 to 15 (R81). -/
def lowCell (n : Nat) : Int := (n % 16 : Nat)

/-- Input formats: INT4, E2M1, and the INT8 of a wide pass (R146). -/
inductive InFmt where
  | int4
  | e2m1
  | int8
  deriving DecidableEq, Repr

/-- The cell range of R73 and R146, and M of Table 05-2. -/
def InFmt.lo : InFmt → Int
  | .int4 => -8
  | .e2m1 => -12
  | .int8 => -128
def InFmt.hi : InFmt → Int
  | .int4 => 7
  | .e2m1 => 12
  | .int8 => 127
def InFmt.top : InFmt → Nat
  | .int4 => 7
  | .e2m1 => 12
  | .int8 => 127

/-- Code of the value of the E2M1 set nearest num/den, ties to the even code: how many midpoints the value passes. -/
def e2m1Code (num den : Nat) : Nat :=
  (([1, 3, 5, 7, 10, 14, 20] : List Nat).zipIdx.filter (fun m =>
    m.1 * den < 2 * num || (m.1 * den == 2 * num && m.2 % 2 == 1))).length

/-- The magnitude of the unclipped value of num/den (R73), before the saturation of R76. -/
def InFmt.mag (f : InFmt) (num den : Nat) : Nat :=
  match f with
  | .e2m1 => if num ≤ 12 * den then e2m1Mag (e2m1Code num den) else rneDiv num den
  | .int4 | .int8 => rneDiv num den

/-- An integer divided by a positive number, rounded to nearest, ties to even. -/
def rneI (a : Int) (d : Nat) : Int := if a < 0 then -(rneDiv a.natAbs d : Int) else rneDiv a.natAbs d

/-! ### The LFSR of a shim unit (R273) -/

/-- One step of the LFSR with polynomial x³² + x²² + x² + x + 1: the bits move up, and bit 0 takes the sum of bits 31, 21, 1 and 0
(the form is DEDUCED: log entry 79). -/
def lfsrBit (x : Nat) : Nat :=
  (x * 2 + ((b2n (bitAt x 31) + b2n (bitAt x 21) + b2n (bitAt x 1) + b2n (bitAt x 0)) % 2)) % 2 ^ 32

/-- The next 32-bit value: 32 steps. -/
def lfsrNext (x : Nat) : Nat := (upFrom 0 32).foldl (fun x _ => lfsrBit x) x

/-! ### Scales -/

/-- An FP16 scale in cell units as m·2^e; an E2M1 operand's stored scale is halved (R69). -/
def scale16 (code : Nat) (e2m1 : Bool) : Nat × Int :=
  match fp16.decode code with
  | .fin _ m e => (m, if e2m1 then e - 1 else e)
  | .inf _ | .nan => (0, 0)

/-- Is an FP16 scale invalid (R72)? -/
def badScale (code : Nat) : Bool := bitAt code 15 || 0x7BFF < code % 2 ^ 15

/-- Insert in descending order. -/
def insertDesc (x : Nat) : List Nat → List Nat
  | [] => [x]
  | y :: ys => if y ≤ x then x :: y :: ys else y :: insertDesc x ys
def sortDesc (l : List Nat) : List Nat := l.foldl (fun acc x => insertDesc x acc) []

/-- An FP32 magnitude divided by M and rounded up to FP16 (R142). -/
def absScale (f : InFmt) (mag : Nat) : Nat :=
  match fp32.decode mag with
  | .fin _ m e => fp16.ceilCode m f.top e
  | .inf _ | .nan => 0x7BFF

/-- The scale of a segment in cell units (Table 05-2, R143), and whether a rule-0 constant was invalid. -/
def segScale (f : InFmt) (rule const : Nat) (xs : List Nat) : (Nat × Int) × Bool :=
  if rule = 0 then
    if badScale const then ((0, 0), true) else (scale16 const (f = .e2m1), false)
  else
    let mags := sortDesc ((xs.filter isFin32).map fAbs)
    let m1 := mags.headD 0
    let m17 := nth 0 mags 16
    let m := if rule = 2 then (if m17 = 0 then m1 else m17) else m1
    (scale16 (absScale f m) false, false)

/-! ### MX operands (R78 to R80) -/

/-- An E2M1 code times 2^(−k), rounded to the E2M1 set, ties to the even code. -/
def mxFp4 (c k : Nat) : Nat := (if bitAt c 3 then 8 else 0) + e2m1Code (e2m1Mag (c % 8)) (2 ^ k)
/-- An INT8 element times 2^(−k), rounded to nearest, halves to even. -/
def mxInt8 (c k : Nat) : Nat := signedBits 8 (rneI (signedOf 8 c) (2 ^ k))

/-- FP16 code of 2^X_max and whether it lies outside the range (R80). -/
def mxScale (xmax : Nat) : Nat × Bool :=
  if xmax < 127 - 24 then (0, true) else if 127 + 15 < xmax then (0x7BFF, true)
  else ((fp16.round false 1 ((xmax : Int) - 127) false).1, false)

/-! ### Segments -/

/-- The unclipped value of an FP32 element at scale sm·2^se, and whether it saturated (R73, R76). A zero scale makes every
element zero (R72). -/
def quantElem (f : InFmt) (sm : Nat) (se : Int) (x : Nat) : Int × Bool :=
  match fp32.decode x with
  | .inf _ | .nan => (0, false)
  | .fin n m e =>
    if sm = 0 then (0, false)
    else
      let d := e - se
      let r := f.mag (m * 2 ^ d.toNat) (sm * 2 ^ (-d).toNat)
      let v : Int := if n then -(r : Int) else r
      (clampI (-32768) 32767 v, v < -32768 || 32767 < v)

/-- A quantised segment: cell values, corrected outliers as (index, residual), the second-pass vector (empty for none) with
its exponent, the scale in cell units, and the counts of R144, R76 and R72. -/
structure Seg where
  q : List Int
  outl : List (Nat × Int)
  second : List Int
  j : Nat
  sm : Nat
  se : Int
  nonfin : Nat
  sat : Nat
  bad : Bool
  deriving DecidableEq, Repr

/-- Insert an outlier by descending magnitude, the lower index first among equals (R74). -/
def insertOut (x : Nat × Int) : List (Nat × Int) → List (Nat × Int)
  | [] => [x]
  | y :: ys => if y.2.natAbs < x.2.natAbs then x :: y :: ys else y :: insertOut x ys

/-- A residual vector quantised at scale 2^j of its own units (R75). -/
def secondAt (f : InFmt) (j : Nat) (res : List Int) : List Int :=
  res.map (fun d => if d < 0 then -(f.mag d.natAbs (2 ^ j) : Int) else f.mag d.natAbs (2 ^ j))

def InFmt.fits (f : InFmt) (l : List Int) : Bool := l.all (fun v => f.lo ≤ v && v ≤ f.hi)

/-- The smallest exponent from `j` on, trying `fuel` of them, for which no element is an outlier. -/
def secondExp (f : InFmt) (res : List Int) : Nat → Nat → Nat
  | 0, j => j
  | n + 1, j => if f.fits (secondAt f j res) then j else secondExp f res n (j + 1)

/-- Quantise 512 FP32 elements by a scale rule (R142 to R148). -/
def quantSeg (f : InFmt) (rule const : Nat) (xs : List Nat) : Seg :=
  let sc := segScale f rule const xs
  let vs := xs.map (quantElem f sc.1.1 sc.1.2)
  let q := vs.map (fun v => clampI f.lo f.hi v.1)
  let out := (List.zipWith (fun v c => v.1 - c) vs q).zipIdx.filterMap (fun d => if d.1 = 0 then none else some (d.2, d.1))
  let ranked := out.foldl (fun acc x => insertOut x acc) []
  let chosen := ranked.take 16
  let left := ranked.drop 16
  let res := (upFrom 0 xs.length).map (fun i => ((left.find? (fun o => o.1 == i)).map (fun o => o.2)).getD 0)
  let j := if left.isEmpty then 0 else secondExp f res 20 0
  { q := q
    outl := chosen
    second := if left.isEmpty then [] else secondAt f j res
    j := j
    sm := sc.1.1
    se := sc.1.2
    nonfin := (xs.filter (fun x => !isFin32 x)).length
    sat := (vs.filter (fun v => v.2)).length
    bad := sc.2 }

/-- Slices of a wide input: X_h (arithmetic shift by 4) and X_l (R81). -/
def highSlice (x : Int) : Int := x / 16
def lowSlice (x : Int) : Int := x % 16

end Sys2Proof.Machine
end

