-- ==== Sys2Proof/Machine/Vector.lean ====
section
/-!
DEFINITION. The vector unit (R190 to R198): its records, their operations (Table 06-16), reductions, the optimiser's update
(R254, R255), re-packing (R257, R258), conversions with scales (R242) and MX re-blocking (R79, R80).
-/

namespace Sys2Proof.Machine

/-! ### Bytes of the bench address space -/

def Bent.byte (b : Bent) (a : Nat) : Nat := bits (b.word (a / 4)).toNat (8 * (a % 4) + 7) (8 * (a % 4))
def Bent.bytes (b : Bent) (a n : Nat) : List Nat := (upFrom a n).map b.byte
def Bent.putByte (b : Bent) (a v : Nat) : Bent :=
  { b with
    bench := put 0 b.bench (a / 4) (withFieldW (b.word (a / 4)) (8 * (a % 4) + 7) (8 * (a % 4)) v)
    counts := put 0 b.counts (a / 4) 0 }
def Bent.putBytes (b : Bent) (a : Nat) : List Nat → Bent
  | [] => b
  | v :: vs => (b.putByte a v).putBytes (a + 1) vs
def natsLE : List Nat → Nat
  | [] => 0
  | b :: bs => b % 256 + 256 * natsLE bs
/-- `n` little-endian values of `w` bytes. -/
def Bent.vals (b : Bent) (a w n : Nat) : List Nat := (upFrom 0 n).map (fun i => natsLE (b.bytes (a + w * i) w))
/-- The little-endian bytes of values of `w` bytes. -/
def toBytes (w : Nat) (l : List Nat) : List Nat := l.flatMap (fun v => (upFrom 0 w).map (fun i => v / 256 ^ i % 256))

/-! ### Records (Tables 06-14 and 06-15) -/

structure VRec where
  op : Nat
  flags : Nat
  count : Nat
  a : Nat
  b : Nat
  d : Nat
  aux : Nat
  imm : List Nat
  index : Nat
  parts : Nat
  /-- does the word stand in the scan phase of an optimiser plan (R254)? -/
  scan : Bool
  deriving DecidableEq, Repr

def Bent.vrec (x : Bent) (at_ : Nat) : VRec where
  op := x.byte at_
  flags := x.byte (at_ + 1)
  count := (x.word (at_ / 4 + 1)).toNat
  a := (x.word (at_ / 4 + 2)).toNat
  b := (x.word (at_ / 4 + 3)).toNat
  d := (x.word (at_ / 4 + 4)).toNat
  aux := (x.word (at_ / 4 + 5)).toNat
  imm := x.vec (at_ / 4 + 6) 8
  index := bits (x.word (at_ / 4 + 14)).toNat 15 0
  parts := bits (x.word (at_ / 4 + 14)).toNat 31 16
  scan := false

def VRec.im (r : VRec) (i : Nat) : Nat := nth 0 r.imm i
def VRec.aFab (r : VRec) : Bool := bitAt r.flags 0
def VRec.bFab (r : VRec) : Bool := bitAt r.flags 1
def VRec.outFab (r : VRec) : Bool := bitAt r.flags 2
def VRec.fmt (r : VRec) : Nat := bits r.flags 4 3
/-- Parts of a MERGE. -/
def VRec.partsN (r : VRec) : Nat := max 1 r.parts

/-- Operations of the shapes d := f(a, ...) and of a reduction. -/
def opElementwise (op : Nat) : Bool := 1 ≤ op && op ≤ 0x0E
def opReduction (op : Nat) : Bool := 0x10 ≤ op && op ≤ 0x16
def opReserved (op : Nat) : Bool := op == 0x0F || 0x1C ≤ op
/-- Operations that read operand B as a vector. -/
def opUsesB (op : Nat) : Bool := op == 1 || op == 2 || op == 3 || op == 4 || op == 6 || op == 9 || op == 0x16

/-- Operand ranges in bench, as (address, bytes). -/
def VRec.inputs (r : VRec) : List (Nat × Nat) :=
  let A := if r.aFab then [] else [(r.a, 4 * r.count)]
  let B := if r.bFab || !opUsesB r.op then [] else [(r.b, 4 * r.count)]
  if opElementwise r.op || opReduction r.op then
    A ++ B ++ (if r.op = 4 then [(r.aux, 4 * r.count)] else []) ++ (if r.op = 0x0D then [(r.d, 4 * r.count)] else [])
  else if r.op = 0x17 then (if r.aFab then [] else [(r.a, 16 * r.partsN)])
  else if r.op = 0x18 then [(r.a, 16 * r.count), (r.aux, 104)]
  else if r.op = 0x19 then (if r.aFab then [] else [(r.a, 2048)])
  else if r.op = 0x1A then (if r.aFab || r.count = 0 then [] else [(r.a, (r.count - 1) * r.im 0 + 1)])
  else if r.op = 0x1B then (if r.aFab then [] else [(r.a, 512)]) ++ (if r.bFab then [] else [(r.b, 16)])
  else []

/-- Bytes of `n` elements in the result format. -/
def fmtBytes (fmt n : Nat) : Nat := if fmt = 1 then 2 * n else if fmt = 2 then n else 4 * n

/-- Result ranges. -/
def VRec.outputs (r : VRec) : List (Nat × Nat) :=
  let d := fun n => if r.outFab then [] else [(r.d, n)]
  if opElementwise r.op then
    d (fmtBytes r.fmt r.count) ++ (if r.fmt = 2 then [(r.aux, 4 * ceilDiv r.count 512)] else [])
  else if opReduction r.op || r.op = 0x17 then d 16
  else if r.op = 0x18 then [(r.a, 16 * r.count)]
  else if r.op = 0x19 then d 512 ++ [(r.aux, if r.im 1 = 0 then 20 else 2)]
  else if r.op = 0x1A then d (ceilDiv r.count 2)
  else if r.op = 0x1B then d 512 ++ [(r.aux, 2)]
  else if opReserved r.op then d (4 * r.count)
  else []

/-- Slots that a record occupies (Table 06-16). -/
def VRec.slots (r : VRec) : Nat :=
  let c := if r.aFab || r.bFab || r.outFab then ceilDiv r.count 32 else ceilDiv r.count 64
  if r.op = 0 then 1
  else if opReduction r.op then c + 10
  else if r.op = 0x17 then 2 * log2Up r.partsN + 4
  else if r.op = 0x18 then 4 * c + 8
  else if r.op = 0x19 then 24
  else if r.op = 0x1B then 16
  else c + 4

/-- Flits of operand A that come over the fabric (R196): 32 FP32 values or 128 bytes in each, and of a MERGE one for each partial
result, since each is the result of its own record. -/
def VRec.flitsA (r : VRec) : Nat :=
  if !r.aFab then 0
  else if opElementwise r.op || opReduction r.op then ceilDiv r.count 32
  else if r.op = 0x17 then r.partsN
  else if r.op = 0x19 then 16
  else if r.op = 0x1A then ceilDiv r.count 128
  else if r.op = 0x1B then 4
  else 0

/-- Flits of operand B that come over the fabric, after those of A (log entry 68). -/
def VRec.flitsB (r : VRec) : Nat :=
  if !r.bFab then 0 else if opUsesB r.op then ceilDiv r.count 32 else if r.op = 0x1B then 1 else 0

/-- Does the record take an operand from the fabric? -/
def VRec.takes (r : VRec) : Bool := r.flitsA != 0 || r.flitsB != 0

/-- Fabric slot from which the result of a record that runs in fabric slot `n` leaves: the word's slot, or where an operand still
comes, the slot after those that the record occupies (DEDUCED: log entry 68). -/
def VRec.outSlot (r : VRec) (n : Nat) : Nat := if r.takes then n + r.slots else n

/-- May the record not run (R197)? -/
def VRec.invalid (r : VRec) : Bool :=
  opReserved r.op || 65536 < r.count ||
    (r.inputs ++ r.outputs).any (fun x => x.2 != 0 && 0x200000 < x.1 + x.2)

/-- What a record takes from the fabric: the flits of operand A and those of B. -/
abbrev VIn : Type := List Flit × List Flit

/-- The first `n` words, or bytes, of flits. -/
def flitWords (fs : List Flit) (n : Nat) : List Nat := ((fs.flatMap Flit.words).take n).map (fun w => w.toNat)
def flitBytes (fs : List Flit) (n : Nat) : List Nat := (fs.flatMap (fun f => (leBytes 128 f.data).map (fun b => b.toNat))).take n

def VRec.valsA (r : VRec) (b : Bent) (x : VIn) : List Nat := if r.aFab then flitWords x.1 r.count else b.vals r.a 4 r.count
def VRec.valsB (r : VRec) (b : Bent) (x : VIn) : List Nat := if r.bFab then flitWords x.2 r.count else b.vals r.b 4 r.count

/-! ### Results and their flags -/

/-- OR flags into the ledger rows, and set or OR those of the bench blocks, that `n` bytes at `a` touch (R188, R425): a bench
block written whole takes the new flags alone. -/
def Bent.outFlags (b : Bent) (a n f : Nat) : Bent :=
  (rowsOf a n).foldl (fun b k => b.markRow f k) ((benchBlks a n).foldl (fun b g =>
    { b with bflags := put 0 b.bflags g (if a ≤ g * 4096 && g * 4096 + 4096 ≤ a + n then f else look 0 b.bflags g ||| f) }) b)

/-- What a record computes: the bytes of its result, what else it writes, whether a result saturated, whether an operand was not
finite, whether its blocks are marked bound exceeded for another reason, and the elements of a reduction. -/
structure VOut where
  dst : List Nat
  wr : List (Nat × List Nat)
  sat : Bool
  nonfin : Bool
  bound : Bool
  n : Nat
  deriving DecidableEq, Repr

def VOut.nothing : VOut := ⟨[], [], false, false, false, 0⟩

/-- What a record writes to bench or ledger: its result, unless that leaves for the fabric, and the rest. -/
def VRec.stores (r : VRec) (dst : List Nat) (wr : List (Nat × List Nat)) : List (Nat × List Nat) :=
  (if r.outFab then [] else [(r.d, dst)]) ++ wr

/-- The flits of a result on the fabric: 128 bytes each, the last one filled with zeros (R196). -/
def byteFlits (flags count : Nat) (bs : List Nat) : List Flit :=
  (upFrom 0 (ceilDiv bs.length 128)).map (fun i =>
    ⟨leNat (((bs.drop (128 * i)).take 128).map (BitVec.ofNat 8)), Flag.isPoison flags, false, 0, flags, count, []⟩)

def Bent.putAll (b : Bent) (l : List (Nat × List Nat)) : Bent := l.foldl (fun b w => b.putBytes w.1 w.2) b
def Bent.flagAll (b : Bent) (f : Nat) (l : List (Nat × List Nat)) : Bent :=
  l.foldl (fun b w => b.outFlags w.1 w.2.length f) b

/-- Flags that the record's operands bring. -/
def Bent.inFlags (b : Bent) (r : VRec) (x : FabIn) : Nat :=
  r.inputs.foldl (fun f i => f ||| Flag.carried (b.rangeFlags i.1 i.2)) x.marks

/-- A word that is not run (R197). -/
def State.dropVec (s : State) (die bent : Nat) (r : VRec) : State :=
  let b := r.outputs.foldl (fun b o => b.markRange o.1 (min o.2 (0x200000 - o.1)) Flag.bound) (s.bent die bent)
  ((s.setBent die bent b).bump (ledgPage die bent) Reg.LEDG_VEC_DROP_COUNT).raise (ledgPage die bent) 3

/-- The elements of a reduction stay with its result (R193). -/
def Bent.noteCount (b : Bent) (r : VRec) (n : Nat) : Bent :=
  if n = 0 || r.outFab then b else { b with counts := put 0 b.counts (r.d / 4) n }

/-- Deliver what a record computes: values, flags, sticky bits, and the consumption of poison (R187, R425, R433). A result on the
fabric travels on the bent's L port (R196). -/
def State.deliverVec (s : State) (die bent : Nat) (l : Live) (slot : Nat) (r : VRec) (x : FabIn) (o : VOut) : State :=
  let b := s.bent die bent
  let f := b.inFlags r x ||| (if o.sat || o.nonfin || o.bound then Flag.bound else 0)
  let ws := r.stores o.dst o.wr
  let b1 := { ((b.putAll ws).flagAll f ws).noteCount r o.n with vecBusy := l.fabSlot slot + r.slots }
  let s1 := (s.setBent die bent b1).sticky die bent 16 o.sat o.nonfin
  let s2 := if r.outFab then s1.stage die bent 4 (r.outSlot (l.fabSlot slot)) (byteFlits f (r.index + 65536 * o.n) o.dst) else s1
  if Flag.isPoison (b.inFlags r x) then s2.consumePoison (ledgPage die bent) l.c 0 else s2

/-- The operands that a record takes from the fabric: those of A from the word's slot on, then those of B. -/
def State.vecTake (s : State) (die bent : Nat) (l : Live) (slot : Nat) (r : VRec) : List Flit × List Flit :=
  let n := l.fabSlot slot
  (s.takeFlits die bent 4 (upFrom n r.flitsA), s.takeFlits die bent 4 (upFrom (n + r.flitsA) r.flitsB))

/-- Is a vector word dropped (R197): a record still runs, or its own may not? -/
def State.vecDrops (s : State) (die bent : Nat) (l : Live) (slot : Nat) (r : VRec) : Bool :=
  decide (l.fabSlot slot < (s.bent die bent).vecBusy) || r.invalid

/-- Have the operands that a record takes from the fabric come? -/
def State.vecCome (s : State) (die bent : Nat) (l : Live) (slot : Nat) (r : VRec) : Bool :=
  !r.takes || s.routerPast die bent (l.fabSlot slot + r.flitsA + r.flitsB)

/-- Input of the router's entry list under which a bent's vector words are noted as carried out. -/
abbrev vecPort : Nat := 6

/-- Blocks of operand A that carry bound exceeded, each counted by the record that takes its first element: bench blocks, or 32
flits of the fabric. -/
def Bent.flaggedA (b : Bent) (r : VRec) (x : VIn) : Nat :=
  if r.aFab then ((upFrom 0 (ceilDiv x.1.length 32)).filter (fun i => bitAt (flitFlags ((x.1.drop (32 * i)).take 32)) 1)).length
  else ((upFrom (ceilDiv r.a 4096) ((r.a + 4 * r.count + 4095) / 4096 - ceilDiv r.a 4096)).filter (fun g =>
    bitAt (b.rangeFlags (4096 * g) 4096) 1)).length

/-- What a record adds to an optimiser step's findings: SUMSQ over the gradients and its MERGE in the scan phase (R254), and a column
of a single-array tile whose scale saturated (R257). -/
def State.noteScan (s : State) (l : Live) (b : Bent) (r : VRec) (x : VIn) (o : VOut) : State :=
  let norm := natsLE (o.dst.take 4)
  if r.scan && r.op == 0x11 then
    s.onRun l.c (fun n => { n with scan := { n.scan with
      norm2 := norm
      nonfinite := n.scan.nonfinite + ((r.valsA b x).filter (fun v => !isFin32 v)).length
      flagged := n.scan.flagged + b.flaggedA r x } })
  else if r.scan && r.op == 0x17 && r.im 0 == 0x11 then s.onRun l.c (fun n => { n with scan := { n.scan with norm2 := norm } })
  else if l.p.img.optimiser && r.op == 0x19 && r.im 1 == 0 && o.bound then
    s.onRun l.c (fun n => { n with scan := { n.scan with clamped := n.scan.clamped + 1 } })
  else s

/-- Run the vector word of a bent in a step slot when its record names operation `op`; NOP's row also takes the words of
reserved operations, which are never run; `sram` is what the read of the record and of its operands in the bench finds (R411). -/
def State.runVec (s : State) (die bent slot : Nat) (sram : SramRead) (op : Nat) (f : List Flit × List Flit → Bent → VRec → VOut)
    (reduces : Bool) : State :=
  match s.bentWord 3 die bent 0 slot with
  | none => s
  | some (l, w) =>
    let b := s.bent die bent
    let r := b.vrec (bits w 20 0)
    if bits w 63 60 ≠ 1 || !(r.op == op || (op == 0 && opReserved r.op)) then s
    else if s.vecDrops die bent l slot r then (s.dropVec die bent r).give die bent vecPort (l.fabSlot slot)
    else if !s.vecCome die bent l slot r then s
    else
      let x := s.vecTake die bent l slot r
      let q := { r with scan := l.scanning slot }
      let s1 := (((s.sramSeen (ledgPage die bent) sram (some l.c)).deliverVec die bent l slot r ((fabIn x.1 x.2).seen sram)
        (f x b q)).give die bent vecPort (l.fabSlot slot)).noteScan l b q x (f x b q)
      if reduces then s1.bump (ledgPage die bent) Reg.LEDG_REDUCE_COUNT else s1

/-- Does a bent's vector word run, as operation `op`? -/
def State.vecRuns (s : State) (die bent : Nat) (l : Live) (slot w op : Nat) : Bool :=
  let r := (s.bent die bent).vrec (bits w 20 0)
  bits w 63 60 == 1 && r.op == op && !s.vecDrops die bent l slot r && s.vecCome die bent l slot r

/-! ### Elementwise operations -/

/-- Split a list into pieces of `k`, `n` pieces at most. -/
def chunks {α : Type} (k : Nat) : Nat → List α → List (List α)
  | 0, _ => []
  | n + 1, l => if l.isEmpty then [] else l.take k :: chunks k n (l.drop k)

/-- Exponent of the scale of R242: the smallest power of two for which max/2^j ≤ 448, from FP32's smallest power up. -/
def fp8Exp (m : Nat) (e : Int) : Nat → Int → Int
  | 0, j => j
  | n + 1, j => if dyLe m e 448 j then j else fp8Exp m e n (j + 1)

/-- Scale exponent of a segment: 0 for a segment of zeros (R242). -/
def fp8Scale (xs : List Nat) : Int :=
  let m := ((xs.filter isFin32).map fAbs).foldl (fun acc v => if fLt acc v then v else acc) 0
  match fp32.decode m with
  | .fin _ mm e => if mm = 0 then 0 else fp8Exp mm e 300 (-149)
  | .nan | .inf _ => 0

/-- x / 2^j as FP8; NaN and the infinities are stored as the E4M3 NaN (R242). -/
def fp8Of (j : Int) (x : Nat) : Nat :=
  match fp32.decode x with
  | .nan | .inf _ => b2n (bitAt x 31) * 128 + 0x7F
  | .fin n m e => (e4m3.round n m (e - j) false).1

/-- A power of two as FP32. -/
def pow2F32 (j : Int) : Nat := (fp32.round false 1 j false).1

/-- Result bytes in the record's format, and the scales of FP8. A reserved format leaves the stored values open. -/
def encodeRes (fmt : Nat) (vs : List Nat) : List Nat × List Nat :=
  if fmt = 0 then (toBytes 4 vs, [])
  else if fmt = 1 then (toBytes 2 (vs.map toBf16), [])
  else if fmt = 2 then
    let segs := chunks 512 vs.length vs
    (segs.flatMap (fun g => g.map (fp8Of (fp8Scale g))), toBytes 4 (segs.map (fun g => pow2F32 (fp8Scale g))))
  else (toBytes 4 (vs.map (fun v => Config.freeValue v % 2 ^ 32)), [])

/-- The writes of an elementwise result. -/
def VRec.result (r : VRec) (rs : List FRes) : VOut :=
  let e := encodeRes r.fmt (rs.map (fun v => v.bits))
  ⟨e.1, if r.fmt = 2 then [(r.aux, e.2)] else [],
    rs.any (fun v => v.sat), rs.any (fun v => v.nonfin), false, 0⟩

/-- d := f(a). -/
def vec1 (f : VRec → Nat → FRes) (x : VIn) (b : Bent) (r : VRec) : VOut := r.result ((r.valsA b x).map (f r))
/-- d := f(a, b). -/
def vec2 (f : VRec → Nat → Nat → FRes) (x : VIn) (b : Bent) (r : VRec) : VOut :=
  r.result (List.zipWith (f r) (r.valsA b x) (r.valsB b x))

/-- One step after another: the last result with the marks of both. -/
def FRes.after (r p : FRes) : FRes := ⟨r.bits, r.sat || p.sat, r.nonfin || p.nonfin⟩

def rowScale (r : VRec) (a g : Nat) : FRes := let p := fMul a (r.im 0); (fMul p.bits g).after p
def convertF (_r : VRec) (a : Nat) : FRes := ⟨a, false, !isFin32 a⟩

def vecFmaOut (x : VIn) (b : Bent) (r : VRec) : VOut :=
  r.result (List.zipWith (fun p e => fFma p.1 p.2 e) (List.zip (r.valsA b x) (r.valsB b x)) (b.vals r.aux 4 r.count))
def vecRescaleOut (x : VIn) (b : Bent) (r : VRec) : VOut :=
  r.result (List.zipWith (fun d a => fFma d (r.im 0) a) (b.vals r.d 4 r.count) (r.valsA b x))

/-! ### Reductions (R190 to R193) -/

/-- A lane or partial state: the element count, the accumulator or mean, the second moment, and the marks of Table 06-5. -/
structure RSt where
  c : Nat
  v : Nat
  m2 : Nat
  sat : Bool
  nonfin : Bool
  deriving DecidableEq, Repr

def RSt.empty : RSt := ⟨0, 0, 0, false, false⟩
def RSt.marks (x : RSt) (rs : List FRes) : RSt :=
  { x with sat := x.sat || rs.any (fun r => r.sat), nonfin := x.nonfin || rs.any (fun r => r.nonfin) }

/-- Is the reduction a maximum or minimum, whose lanes start with their first element? -/
def opExtreme (op : Nat) : Bool := 0x13 ≤ op && op ≤ 0x15

/-- The lane step of Table 06-6 for element x, with y its factor in DOT. -/
def laneStep (op : Nat) (s : RSt) (x y : Nat) : RSt :=
  if op = 0x10 then let r := fAdd s.v x; { s with c := s.c + 1, v := r.bits }.marks [r]
  else if op = 0x11 then let r := fFma x x s.v; { s with c := s.c + 1, v := r.bits }.marks [r]
  else if op = 0x16 then let r := fFma x y s.v; { s with c := s.c + 1, v := r.bits }.marks [r]
  else if op = 0x12 then
    let c := s.c + 1
    let d := fSub x s.v
    let q := fDiv d.bits (natF32 c)
    let m := fAdd s.v q.bits
    let e := fSub x m.bits
    let r := fFma d.bits e.bits s.m2
    { s with c := c, v := m.bits, m2 := r.bits }.marks [d, q, m, e, r]
  else
    let z := if op = 0x15 then fAbs x else x
    let r : FRes := if s.c = 0 then ⟨z, false, !isFin32 z⟩ else if op = 0x14 then fMin s.v z else fMax s.v z
    { s with c := s.c + 1, v := r.bits }.marks [r]

/-- The merge of MEANVAR states (R190). -/
def mergeVar (a b : RSt) : RSt :=
  let c := (a.c + b.c) % 2 ^ 32
  let fc := natF32 c
  let d := fSub b.v a.v
  let q := fDiv (natF32 b.c) fc
  let p := fMul d.bits q.bits
  let m := fAdd a.v p.bits
  let s1 := fAdd a.m2 b.m2
  let d2 := fMul d.bits d.bits
  let n := fMul (natF32 a.c) (natF32 b.c)
  let n2 := fDiv n.bits fc
  let t := fMul d2.bits n2.bits
  let s2 := fAdd s1.bits t.bits
  RSt.marks ⟨c, m.bits, s2.bits, a.sat || b.sat, a.nonfin || b.nonfin⟩ [d, q, p, m, s1, d2, n, n2, t, s2]

/-- Is a state empty (R191): +0 for the sums, count 0 for MEANVAR; the lanes of a maximum that took no element? -/
def RSt.isEmpty (op : Nat) (s : RSt) : Bool := if op = 0x12 || opExtreme op then s.c == 0 else s.v == 0

/-- Merge two states; an empty one returns the other unchanged. The elements of both are counted. -/
def mergeSt (op : Nat) (a b : RSt) : RSt :=
  if b.isEmpty op then { a with c := a.c + b.c, sat := a.sat || b.sat, nonfin := a.nonfin || b.nonfin }
  else if a.isEmpty op then { b with c := a.c + b.c, sat := a.sat || b.sat, nonfin := a.nonfin || b.nonfin }
  else if op = 0x12 then mergeVar a b
  else
    let r := if op = 0x14 then fMin a.v b.v else if opExtreme op then fMax a.v b.v else fAdd a.v b.v
    RSt.marks ⟨a.c + b.c, r.bits, 0, a.sat || b.sat, a.nonfin || b.nonfin⟩ [r]

/-- One level of the tree of R191. -/
def mergePairs (op : Nat) : List RSt → List RSt
  | a :: b :: l => mergeSt op a b :: mergePairs op l
  | [a] => [a]
  | [] => []

/-- The tree over `n` levels. -/
def mergeTree (op : Nat) : Nat → List RSt → RSt
  | 0, l => l.headD RSt.empty
  | n + 1, l => mergeTree op n (mergePairs op l)

/-- The reduction of a vector: lanes i mod 64, then the tree. -/
def reduce (op : Nat) (xs ys : List Nat) : RSt :=
  let pairs := (List.zip xs ys).zipIdx
  mergeTree op 6 ((upFrom 0 64).map (fun lane =>
    (pairs.filter (fun p => p.2 % 64 == lane)).foldl (fun s p => laneStep op s p.1.1 p.1.2) RSt.empty))

/-- The 16 bytes of a result (Table 06-16), and the marks: more than 2²⁴ elements carry bound exceeded (R193). -/
def VRec.reduced (_r : VRec) (op : Nat) (s : RSt) : VOut :=
  let q := if s.c = 0 then ⟨0, false, false⟩ else fDiv s.m2 (natF32 s.c)
  let w := if op = 0x12 then [s.c % 2 ^ 32, s.v, s.m2, q.bits] else [s.v, 0, 0, 0]
  ⟨toBytes 4 w, [], s.sat || (op = 0x12 && q.sat), s.nonfin, decide (2 ^ 24 < s.c), s.c⟩

/-- The scan of an optimiser plan forms its norm over the finite elements (R254). -/
def vecReduce (x : VIn) (b : Bent) (r : VRec) : VOut :=
  let xs := (r.valsA b x).map (fun v => if r.scan && r.op == 0x11 && !isFin32 v then 0 else v)
  r.reduced r.op (reduce r.op xs (if r.op = 0x16 then r.valsB b x else xs))

/-- A partial result as MERGE takes it, of `n` elements: a value that is not finite counts as such wherever it lands in the tree
(Table 06-5). Of MEANVAR it holds its own count. -/
def stateOf (op n : Nat) (w : List Nat) : RSt :=
  if op = 0x12 then ⟨nth 0 w 0, nth 0 w 1, nth 0 w 2, false, !isFin32 (nth 0 w 1) || !isFin32 (nth 0 w 2)⟩
  else ⟨max 1 n, nth 0 w 0, 0, false, !isFin32 (nth 0 w 0)⟩

/-- A state in memory. -/
def stateAt (b : Bent) (op a : Nat) : RSt := stateOf op (look 0 b.counts (a / 4)) (b.vals a 4 4)

/-- The partial of index `i` among those that came over the fabric: its index, and not the slot in which it came, gives its place
(R192). An index that no flit carries holds the empty state. -/
def stateIn (fs : List Flit) (op i : Nat) : RSt :=
  match fs.find? (fun f => f.count % 65536 == i) with
  | some f => stateOf op (f.count / 65536) (flitWords [f] 4)
  | none => RSt.empty

/-- MERGE; an imm0 that names no reduction leaves the 16 bytes open. -/
def vecMergeOut (x : VIn) (b : Bent) (r : VRec) : VOut :=
  let op := r.im 0
  if opReduction op then
    r.reduced op (mergeTree op (log2Up r.partsN) ((upFrom 0 r.partsN).map (fun i =>
      if r.aFab then stateIn x.1 op i else stateAt b op (r.a + 16 * i))))
  else ⟨toBytes 4 [Config.freeValue r.a % 2 ^ 32, Config.freeValue (r.a + 1) % 2 ^ 32, Config.freeValue (r.a + 2) % 2 ^ 32,
    Config.freeValue (r.a + 3) % 2 ^ 32], [], false, false, false, 0⟩

/-! ### The optimiser (R254, R255) -/

/-- One element of the update phase: the new w, m, v, and every step's result for its marks. -/
def adamw (lr b1 b2 eps wd bc1 bc2 gs w m v g0 : Nat) : Nat × Nat × Nat × List FRes :=
  let g := fMul g0 gs
  let p1 := fMul b1 m
  let o1 := fSub 0x3F800000 b1
  let p2 := fMul o1.bits g.bits
  let m' := fAdd p1.bits p2.bits
  let p3 := fMul b2 v
  let o2 := fSub 0x3F800000 b2
  let gg := fMul g.bits g.bits
  let p4 := fMul o2.bits gg.bits
  let v' := fAdd p3.bits p4.bits
  let n := fMul m'.bits bc1
  let vb := fMul v'.bits bc2
  let sq := fSqrt vb.bits
  let dn := fAdd sq.bits eps
  let q := fDiv n.bits dn.bits
  let ww := fMul wd w
  let t := fAdd q.bits ww.bits
  let u := fMul lr t.bits
  let w' := fSub w u.bits
  (w'.bits, m'.bits, v'.bits, [g, p1, o1, p2, m', p3, o2, gg, p4, v', n, vb, sq, dn, q, ww, t, u, w'])

def vecAdamwOut (b : Bent) (r : VRec) : VOut :=
  let n := r.count
  let f := fun off => natsLE (b.bytes (r.aux + off) 4)
  let zeros := (r.a + 12 * n, List.replicate (4 * n) 0)
  if f 0x60 ≠ 0 then ⟨[], [zeros], false, false, false, 0⟩
  else
    let rs := (upFrom 0 n).map (fun i =>
      let at_ := fun k => natsLE (b.bytes (r.a + 4 * (k * n + i)) 4)
      adamw (f 0x30) (f 0x34) (f 0x38) (f 0x3C) (f 0x40) (f 0x48) (f 0x4C) (f 0x54) (at_ 0) (at_ 1) (at_ 2) (at_ 3))
    ⟨[], [(r.a, toBytes 4 (rs.map (fun x => x.1))), (r.a + 4 * n, toBytes 4 (rs.map (fun x => x.2.1))),
      (r.a + 8 * n, toBytes 4 (rs.map (fun x => x.2.2.1))), zeros],
      rs.any (fun x => x.2.2.2.any (fun y => y.sat)), rs.any (fun x => x.2.2.2.any (fun y => y.nonfin)), false, 0⟩

/-! ### Re-packing (R257, R258) -/

/-- The smallest FP16 not below |x| / den, saturating at 65,504, and whether it saturated. -/
def colScale (x den : Nat) : Nat × Bool :=
  match fp32.decode x with
  | .fin _ m e => (fp16.ceilCode m den e, !dyLe m e (65504 * den) 0)
  | .nan | .inf _ => (0x7BFF, true)

/-- round(W / s), halves to even; a zero scale gives 0, an element that is not finite a free value. -/
def packVal (scale x row : Nat) : Int :=
  match fp32.decode x, fp16.decode scale with
  | .fin n m e, .fin _ sm se =>
    if sm = 0 then 0
    else
      let d := e - se
      let v := rneDiv (m * 2 ^ d.toNat) (sm * 2 ^ (-d).toNat)
      if n then -(v : Int) else v
  | _, _ => ((Config.nanBits x row % 271 : Nat) : Int) - 136

def vecRepackOut (x : VIn) (b : Bent) (r : VRec) : VOut :=
  let ws := if r.aFab then flitWords x.1 512 else b.vals r.a 4 512
  let mags := sortDesc ((ws.filter isFin32).map fAbs)
  let nonfin := ws.any (fun w => !isFin32 w)
  if r.im 1 ≠ 0 then
    let s := colScale (mags.headD 0) 127
    let vs := ws.zipIdx.map (fun w => clampI (-128) 127 (packVal s.1 w.1 w.2))
    ⟨vs.map (signedBits 8), [(r.aux, toBytes 2 [s.1])], false, nonfin, s.2, 0⟩
  else
    let s5 := colScale (nth 0 mags 4) 7
    let s1 := colScale (mags.headD 0) 134
    let sc := max s5.1 s1.1
    let isOver := s5.2 || s1.2
    let vs := ws.zipIdx.map (fun w =>
      let v := packVal sc w.1 w.2
      if isOver then clampI (-136) 134 v else v)
    let cs := vs.map (clampI (-8) 7)
    let ents := ((List.zip vs cs).zipIdx.filterMap (fun p => if p.1.1 = p.1.2 then none
      else some (p.2 * 2 ^ 23 + r.im 0 % 512 * 2 ^ 14 + signedBits 8 (p.1.1 - p.1.2)))).take 4
    ⟨cs.map (signedBits 4), [(r.aux, toBytes 2 [sc] ++ [ents.length, b2n isOver] ++ toBytes 4 ents)], false, nonfin, isOver, 0⟩

/-- PACK: one nibble of each of count bytes, two per byte (R71). -/
def pairUp : List Nat → List Nat
  | a :: b :: l => (a + 16 * b) :: pairUp l
  | [a] => [a]
  | [] => []

def vecPackOut (x : VIn) (b : Bent) (r : VRec) : VOut :=
  let src := if r.aFab then flitBytes x.1 r.count else (upFrom 0 r.count).map (fun i => b.byte (r.a + i * r.im 0))
  let ns := src.map (fun y =>
    let v := y % 256
    if r.im 1 = 0 then v % 16 else v / 16)
  ⟨pairUp ns, [], false, false, false, 0⟩

/-! ### MX operands (R79, R80) -/

/-- The E8M0 NaN as an exponent leaves the elements and the scale open. -/
def vecMxOut (x : VIn) (b : Bent) (r : VRec) : VOut :=
  let es := (if r.aFab then flitBytes x.1 512 else b.bytes r.a 512).map (fun y => y % 256)
  let xs := (if r.bFab then flitBytes x.2 16 else b.bytes r.b 16).map (fun y => y % 256)
  let xmax := maxL xs
  let sc := mxScale xmax
  let els := es.zipIdx.map (fun e =>
    if xmax = 0xFF then Config.nanBits e.1 e.2 % 256
    else
      let k := xmax - nth 0 xs (e.2 / 32)
      if r.im 0 = 1 then mxInt8 e.1 k else mxFp4 (e.1 % 16) k)
  let s := if xmax = 0xFF then Config.nanBits r.a r.b % 2 ^ 16 else sc.1
  ⟨els, [(r.aux, toBytes 2 [s])], false, xmax = 0xFF, sc.2, 0⟩

/-! ### The rows of Table 06-16 -/

/-- A count of 0 moves nothing (R349); the reductions then give the values of R193, and MERGE ignores the count. -/
def unlessEmpty (f : VIn → Bent → VRec → VOut) (x : VIn) (b : Bent) (r : VRec) : VOut :=
  if r.count = 0 then VOut.nothing else f x b r

def execVecNop (die bent slot : Nat) (sram : SramRead) (s : State) : Host.Outcome State Fault Refusal :=
  ok (s.whenUp (fun s => s.runVec die bent slot sram 0x00 (fun _ _ _ => VOut.nothing) false))

def execVecAdd (die bent slot : Nat) (sram : SramRead) (s : State) : Host.Outcome State Fault Refusal :=
  ok (s.whenUp (fun s => s.runVec die bent slot sram 0x01 (unlessEmpty (vec2 (fun _ a b => fAdd a b))) false))

def execVecSub (die bent slot : Nat) (sram : SramRead) (s : State) : Host.Outcome State Fault Refusal :=
  ok (s.whenUp (fun s => s.runVec die bent slot sram 0x02 (unlessEmpty (vec2 (fun _ a b => fSub a b))) false))

def execVecMul (die bent slot : Nat) (sram : SramRead) (s : State) : Host.Outcome State Fault Refusal :=
  ok (s.whenUp (fun s => s.runVec die bent slot sram 0x03 (unlessEmpty (vec2 (fun _ a b => fMul a b))) false))

def execVecFma (die bent slot : Nat) (sram : SramRead) (s : State) : Host.Outcome State Fault Refusal :=
  ok (s.whenUp (fun s => s.runVec die bent slot sram 0x04 (unlessEmpty vecFmaOut) false))

def execVecScale (die bent slot : Nat) (sram : SramRead) (s : State) : Host.Outcome State Fault Refusal :=
  ok (s.whenUp (fun s => s.runVec die bent slot sram 0x05 (unlessEmpty (vec1 (fun r a => fFma a (r.im 0) (r.im 1)))) false))

def execVecRowscale (die bent slot : Nat) (sram : SramRead) (s : State) : Host.Outcome State Fault Refusal :=
  ok (s.whenUp (fun s => s.runVec die bent slot sram 0x06 (unlessEmpty (vec2 rowScale)) false))

def execVecSilu (die bent slot : Nat) (sram : SramRead) (s : State) : Host.Outcome State Fault Refusal :=
  ok (s.whenUp (fun s => s.runVec die bent slot sram 0x07 (unlessEmpty (vec1 (fun _ a => vSilu a))) false))

def execVecGelu (die bent slot : Nat) (sram : SramRead) (s : State) : Host.Outcome State Fault Refusal :=
  ok (s.whenUp (fun s => s.runVec die bent slot sram 0x08 (unlessEmpty (vec1 (fun _ a => vGelu a))) false))

def execVecSwiglu (die bent slot : Nat) (sram : SramRead) (s : State) : Host.Outcome State Fault Refusal :=
  ok (s.whenUp (fun s => s.runVec die bent slot sram 0x09 (unlessEmpty (vec2 (fun _ a b => vSwiglu a b))) false))

def execVecExp (die bent slot : Nat) (sram : SramRead) (s : State) : Host.Outcome State Fault Refusal :=
  ok (s.whenUp (fun s => s.runVec die bent slot sram 0x0A (unlessEmpty (vec1 (fun r a => vExp a (r.im 0)))) false))

def execVecRecip (die bent slot : Nat) (sram : SramRead) (s : State) : Host.Outcome State Fault Refusal :=
  ok (s.whenUp (fun s => s.runVec die bent slot sram 0x0B (unlessEmpty (vec1 (fun _ a => vRecip a))) false))

def execVecRsqrt (die bent slot : Nat) (sram : SramRead) (s : State) : Host.Outcome State Fault Refusal :=
  ok (s.whenUp (fun s => s.runVec die bent slot sram 0x0C (unlessEmpty (vec1 (fun r a => vRsqrt a (r.im 0)))) false))

def execVecConvert (die bent slot : Nat) (sram : SramRead) (s : State) : Host.Outcome State Fault Refusal :=
  ok (s.whenUp (fun s => s.runVec die bent slot sram 0x0E (unlessEmpty (vec1 convertF)) false))

def execVecSum (die bent slot : Nat) (sram : SramRead) (s : State) : Host.Outcome State Fault Refusal :=
  ok (s.whenUp (fun s => s.runVec die bent slot sram 0x10 vecReduce true))

def execVecSumsq (die bent slot : Nat) (sram : SramRead) (s : State) : Host.Outcome State Fault Refusal :=
  ok (s.whenUp (fun s => s.runVec die bent slot sram 0x11 vecReduce true))

def execVecMeanvar (die bent slot : Nat) (sram : SramRead) (s : State) : Host.Outcome State Fault Refusal :=
  ok (s.whenUp (fun s => s.runVec die bent slot sram 0x12 vecReduce true))

def execVecMax (die bent slot : Nat) (sram : SramRead) (s : State) : Host.Outcome State Fault Refusal :=
  ok (s.whenUp (fun s => s.runVec die bent slot sram 0x13 vecReduce true))

def execVecMin (die bent slot : Nat) (sram : SramRead) (s : State) : Host.Outcome State Fault Refusal :=
  ok (s.whenUp (fun s => s.runVec die bent slot sram 0x14 vecReduce true))

def execVecAbsmax (die bent slot : Nat) (sram : SramRead) (s : State) : Host.Outcome State Fault Refusal :=
  ok (s.whenUp (fun s => s.runVec die bent slot sram 0x15 vecReduce true))

def execVecDot (die bent slot : Nat) (sram : SramRead) (s : State) : Host.Outcome State Fault Refusal :=
  ok (s.whenUp (fun s => s.runVec die bent slot sram 0x16 vecReduce true))

def execVecMerge (die bent slot : Nat) (sram : SramRead) (s : State) : Host.Outcome State Fault Refusal :=
  ok (s.whenUp (fun s => s.runVec die bent slot sram 0x17 vecMergeOut true))

def execVecAdamw (die bent slot : Nat) (sram : SramRead) (s : State) : Host.Outcome State Fault Refusal :=
  ok (s.whenUp (fun s => s.runVec die bent slot sram 0x18 (unlessEmpty (fun _ => vecAdamwOut)) false))

def execVecRepackCol (die bent slot : Nat) (sram : SramRead) (s : State) : Host.Outcome State Fault Refusal :=
  ok (s.whenUp (fun s => s.runVec die bent slot sram 0x19 (unlessEmpty vecRepackOut) false))

def execVecPack (die bent slot : Nat) (sram : SramRead) (s : State) : Host.Outcome State Fault Refusal :=
  ok (s.whenUp (fun s => s.runVec die bent slot sram 0x1A (unlessEmpty vecPackOut) false))

def execVecMxReblock (die bent slot : Nat) (sram : SramRead) (s : State) : Host.Outcome State Fault Refusal :=
  ok (s.whenUp (fun s => s.runVec die bent slot sram 0x1B (unlessEmpty vecMxOut) false))

end Sys2Proof.Machine
end

