-- ==== Sys2Proof/Machine/Grad.lean ====
section
/-!
DEFINITION. The gradient units (R243 to R249): accumulation of outer products, bank swaps, flushes and folds (Table 08-1).
-/

namespace Sys2Proof.Machine

abbrev gradPage (die g : Nat) : Page := unitPage .grad die g

/-- The routers whose X ports join attention engine `e` and gradient unit `g` (R298). -/
def attBent (e : Nat) : Nat := unitBent e + 3
def gradBent (g : Nat) : Nat := unitBent g + 4

/-- The running plan of the context that owns the bents of an engine or gradient unit, with the unit's word in a step slot, as far
as no snapshot holds the unit back. -/
def State.unitWord (s : State) (kind die unit slot : Nat) : Option (Live × Nat) :=
  match s.owner die (unitBent unit) with
  | none => none
  | some c => match s.live c with
    | none => none
    | some l =>
      if s.cutHolds [unitPage (if kind = 4 then .att else .grad) die unit] (l.fabSlot slot) then none
      else (l.wordNow kind die unit 0 slot).map (fun w => (l, w))

/-! ### Banks -/

def GUnit.bank (u : GUnit) (b : Nat) : GBank := if b = 0 then u.bank0 else u.bank1
def GUnit.setBank (u : GUnit) (b : Nat) (x : GBank) : GUnit := if b = 0 then { u with bank0 := x } else { u with bank1 := x }
def GUnit.activeBank (u : GUnit) : GBank := u.bank u.active
def GUnit.otherBank (u : GUnit) : GBank := u.bank (1 - u.active)

/-- Bytes of a tile of G or S: 1 MiB. -/
abbrev tileBytes : Nat := 1048576

/-! ### Accumulation (R244, R246) -/

/-- One token vector as it arrives: 512 FP8 activation elements, the scale a, and 512 BF16 error elements. -/
structure GVec where
  x : List Nat
  a : Nat
  d : List Nat
  deriving DecidableEq, Repr

/-- Little-endian field `i` of `n` bytes of a flit. -/
def flitField (f : Flit) (n i : Nat) : Nat := f.data / 2 ^ (8 * n * i) % 2 ^ (8 * n)

/-- Sixteen flits of the X port as one vector (R246): 0 to 3 the activation elements, 4 the scale, 5 to 12 the error elements. -/
def gvec (fs : List Flit) : GVec :=
  let f := fun i => nth (⟨0, false, false, 0, 0, 0, []⟩ : Flit) fs i
  ⟨(upFrom 0 512).map (fun i => flitField (f (i / 128)) 1 (i % 128)), flitField (f 4) 4 0,
    (upFrom 0 512).map (fun i => flitField (f (5 + i / 64)) 2 (i % 64))⟩

def FVal.finite : FVal → Bool
  | .fin _ _ _ => true
  | .nan | .inf _ => false
/-- An operand that is NaN or infinite counts as zero (R244). -/
def FVal.orZero : FVal → FVal
  | .fin n m e => .fin n m e
  | .nan | .inf _ => .fin false 0 0

def GVec.xs (v : GVec) : List FVal := v.x.map (fun x => e4m3.decode (x % 256))
def GVec.ds (v : GVec) : List FVal := v.d.map (fun d => bf16.decode (d % 2 ^ 16))
/-- Operands of the vector that are not finite. -/
def GVec.bad (v : GVec) : Nat :=
  (v.xs.filter (fun x => !x.finite)).length + (v.ds.filter (fun x => !x.finite)).length + b2n (!isFin32 v.a)

/-- The cells after one outer product, with the marks of the additions. -/
def accVec (cells : Sparse W32) (v : GVec) : List FRes :=
  let a := (fp32.decode v.a).orZero
  let xs := v.xs.map (fun x => mulV x.orZero a)
  let ds := v.ds.map (fun d => d.orZero)
  (upFrom 0 262144).map (fun k =>
    let acc := (look 0 cells k).toNat
    addV acc 0 (fp32.decode acc) (mulV (nth (.fin false 0 0) xs (k / 512)) (nth (.fin false 0 0) ds (k % 512))))

/-- Cells of a list of results. -/
def cellsOf (rs : List FRes) : Sparse W32 :=
  rs.zipIdx.filterMap (fun r => if BitVec.ofNat 32 r.1.bits = 0 then none else some (r.2, BitVec.ofNat 32 r.1.bits))

/-- Accumulate vectors one after another: the bank, and how many operands were not finite. -/
def GBank.accumulate (b : GBank) : List GVec → GBank × Nat
  | [] => (b, 0)
  | v :: vs =>
    let rs := accVec b.cells v
    let fl := if v.bad ≠ 0 || rs.any (fun r => r.sat) then b.flags ||| Flag.bound else b.flags
    let r := ({ b with cells := cellsOf rs, flags := fl } : GBank).accumulate vs
    (r.1, r.2 + v.bad)

/-- Does tile `t` lie within the plan's bindings for G, S and the tile records (R331)? -/
def Live.tileIn (l : Live) (t : Nat) : Bool :=
  (t + 1) * tileBytes ≤ (l.membind 0).2 && (t + 1) * tileBytes ≤ (l.membind 1).2 && 8 * (t + 1) ≤ (l.membind 2).2

/-- Fix the target tile of a bank with its first ACCUMULATE. A tile that lies outside the plan's bindings has no address: the bank
stays without a target, and its sums reach no tile. DESIGN CHOICE: log entry 84. -/
def GBank.aim (b : GBank) (l : Live) (tile : Nat) : GBank :=
  match b.tile with
  | some _ => b
  | none => if !l.tileIn tile then b else { b with
    state := 1
    tile := some tile
    ctx := l.c
    step := l.x.steps + 1
    gAddr := (l.membind 0).1 + tile * tileBytes
    sAddr := (l.membind 1).1 + tile * tileBytes
    recAddr := (l.membind 2).1 + 8 * tile }

/-- Run an ACCUMULATE word on the flits that came in its slots. -/
def State.accumulate (s : State) (die g : Nat) (l : Live) (w : Nat) (fs : List Flit) : State :=
  let u := s.grad die g
  let n := bits w 31 16
  let b := u.activeBank.aim l (bits w 55 32)
  let m := (fabIn fs []).marks
  let r := ({ b with flags := b.flags ||| m } : GBank).accumulate ((upFrom 0 n).map (fun t => gvec ((fs.drop (16 * t)).take 16)))
  let s1 := (s.setGrad die g (u.setBank u.active r.1)).bumpN (gradPage die g) Reg.GRAD_VECTOR_COUNT n
  let s2 := if r.2 = 0 then s1 else (s1.bumpN (gradPage die g) Reg.GRAD_NONFINITE_COUNT r.2).raise (gradPage die g) 1
  if Flag.isPoison m then
    ((s2.bump (gradPage die g) Reg.GRAD_POISON_COUNT).raise (gradPage die g) 2).consumePoison (gradPage die g) l.c 0
  else s2

/-- The unit acts once its router has completed the last slot of the word's vectors; `sram` is what the read of the bank finds. -/
def execGradAccumulate (die gunit slot : Nat) (sram : SramRead) (s : State) : Host.Outcome State Fault Refusal :=
  ok (s.whenUp (fun s => match s.unitWord 5 die gunit slot with
    | some (l, w) =>
      let n := 16 * bits w 31 16
      if bits w 63 60 = 1 && s.routerPast die (gradBent gunit) (l.fabSlot slot + n) then
        (s.sramSeen (gradPage die gunit) sram (some l.c)).accumulate die gunit l w
          (sramFlits sram (s.takeFlits die (gradBent gunit) 5 (upFrom (l.fabSlot slot) n)))
      else s
    | none => s))

/-! ### Bank swaps (R245) -/

/-- The tile that the unit's next ACCUMULATE word at or after a step slot names. -/
def Live.nextTile (l : Live) (die g slot : Nat) : Option Nat :=
  ((l.words 5 die g 0).find? (fun w => slot ≤ w.1 && bits w.2 63 60 == 1)).map (fun w => bits w.2 55 32)

/-- Does a tile of a context wait for a fold? -/
def State.foldPending (s : State) (c : Nat) (tile : Option Nat) : Bool :=
  match tile with
  | some t => s.folds.any (fun f => f.queued && f.ctx == c && f.tile == t)
  | none => false

/-- Does a bank swap at a step slot have its conditions: the other bank's flush ended, and neither the tile that flushes nor the
one that opens waiting for a fold (R245, Table 08-1)? -/
def State.swapReady (s : State) (l : Live) (die g slot : Nat) : Bool :=
  let u := s.grad die g
  u.otherBank.state != 2 && !s.foldPending l.c u.activeBank.tile && !s.foldPending l.c (l.nextTile die g slot)

/-- The bank swap: the active bank starts to flush, or is idle when it has accumulated nothing; the other opens at +0. -/
def State.bankSwap (s : State) (die g : Nat) : State :=
  let u := s.grad die g
  let a := u.activeBank
  let done : GBank := match a.tile with
    | some _ => { a with state := 2, seq := ((s.rd (gradPage die g) Reg.GRAD_FLUSH_SEQ).toNat + 1) % 2 ^ 32 }
    | none => GBank.reset
  let u1 := (u.setBank u.active done).setBank (1 - u.active) { GBank.reset with state := 1 }
  s.setGrad die g { u1 with active := 1 - u.active }

/-! ### Flushes and folds (Table 08-1) -/

/-- Write a tile record. -/
def State.putRecord (s : State) (die g addr state tag c : Nat) : State :=
  s.unitWrite addr (leBytes 8 (state + tag % 2 ^ 32 * 2 ^ 32)) (s.stepTag c) (producer die 2 g) 0

/-- Add two lists of FP32 values, given as bytes; the flag says that a sum saturated. -/
def addF32s (a b : List Nat) : Bytes × Bool :=
  let rs := List.zipWith fAdd a b
  (rs.flatMap (fun r => leBytes 4 r.bits), rs.any (fun r => r.sat))

/-- Little-endian 32-bit values of a byte string. -/
def f32sOf (bs : Bytes) : List Nat := (upFrom 0 (bs.length / 4)).map (fun i => fieldB bs (4 * i) 4)

/-- Write blocks of a sum tile := base + add: `base` none for a plain store. It answers whether a read met poison. -/
def State.sumTile (s : State) (die g c dst : Nat) (base : Option Nat) (add : State → Nat → List Nat × Nat × State)
    (flags : Nat) : List Nat → Bool × State
  | [] => (false, s)
  | k :: ks =>
    let r := add s k
    let old := match base with
      | some a => r.2.2.unitRead (a + 4096 * k) 4096
      | none => (⟨[], 0⟩, r.2.2)
    let v := match base with
      | some _ => addF32s (f32sOf old.1.data) r.1
      | none => (r.1.flatMap (fun x => leBytes 4 x), false)
    let f := flags ||| r.2.1 ||| Flag.carried old.1.flags ||| (if v.2 then Flag.bound else 0)
    let s1 := old.2.unitWrite (dst + 4096 * k) v.1 (s.stepTag c) (producer die 2 g) f
    let rest := s1.sumTile die g c dst base add flags ks
    (Flag.isPoison f || rest.1, rest.2)

/-- A fold or flush that reads an uncorrectable codeword faults the context and empties the tile. -/
def State.tilePoison (s : State) (die g c tile rec : Nat) : State :=
  let s1 := (((s.bump (gradPage die g) Reg.GRAD_POISON_COUNT).raise (gradPage die g) 2).consumePoison (gradPage die g) c
    rec).putRecord die g rec 0 0 c
  { s1 with folds := s1.folds.filter (fun f => !(f.ctx == c && f.tile == tile)) }

/-- The tile after a flush of step k: in the list, queued for its fold where the step has closed already. -/
def State.noteFlush (s : State) (die g : Nat) (b : GBank) (tile : Nat) : State :=
  let closed := match s.ctx b.ctx with
    | some x => b.step ≤ x.steps
    | none => false
  { s with folds := s.folds.filter (fun f => !(f.ctx == b.ctx && f.tile == tile)) ++
    [⟨unitKey die g, b.ctx, tile, b.sAddr, b.gAddr, b.recAddr, b.step, closed⟩] }

/-- A bank's flush reaches its tile; where the record itself is found uncorrectable, nothing is added. -/
def State.flushBank (s : State) (die g : Nat) (b : GBank) (tile : Nat) : State :=
  let rec_ := s.unitRead b.recAddr 8
  let v := leNat rec_.1.data
  let more := v % 4 != 0 && v / 2 ^ 32 == b.step % 2 ^ 32
  let r := if Flag.isPoison rec_.1.flags then (true, rec_.2)
    else rec_.2.sumTile die g b.ctx b.sAddr (if more then some b.sAddr else none)
      (fun s k => ((upFrom (1024 * k) 1024).map (fun i => (look 0 b.cells i).toNat), 0, s)) b.flags (upFrom 0 256)
  let s1 := (r.2.wr (gradPage die g) Reg.GRAD_FLUSH_SEQ (BitVec.ofNat 32 b.seq)).bump (gradPage die g) Reg.GRAD_FLUSH_COUNT
  if r.1 then s1.tilePoison die g b.ctx tile b.recAddr
  else
    let s2 := s1.noteFlush die g b tile
    s2.putRecord die g b.recAddr (if s2.foldPending b.ctx (some tile) then 2 else 1) b.step b.ctx

def execGradFlushComplete (die gunit : Nat) (s : State) : Host.Outcome State Fault Refusal :=
  ok (s.whenUp (fun s =>
    let u := s.grad die gunit
    let b := u.otherBank
    match b.tile with
    | some t => if b.state = 2 then (s.flushBank die gunit b t).setGrad die gunit (u.setBank (1 - u.active) GBank.reset) else s
    | none => s))

/-- The gate that closes step k: its tiles go to FOLD_PENDING. -/
def State.closeFolds (s : State) (c k : Nat) : State :=
  let mine := fun (f : Fold) => f.ctx == c && f.step == k && !f.queued
  let s1 := (s.folds.filter mine).foldl (fun s f => s.putRecord (f.unit / 16) (f.unit % 16) f.recAddr 2 f.step c) s
  { s1 with folds := s1.folds.map (fun f => if mine f then { f with queued := true } else f) }

/-- A gradient unit one of whose bents changes its owner: what a bank has accumulated goes, so that no data of one context meets
another's (R263). A bank that flushes goes on to its own tile. -/
def State.clearGrad (s : State) (die g : Nat) : State :=
  let u := s.grad die g
  let clean := fun (b : GBank) => if b.state = 2 then b else GBank.reset
  s.setGrad die g { u with bank0 := clean u.bank0, bank1 := clean u.bank1 }

/-- Empty the banks that hold gradients of a context: those of one step, or all. What a bank still flushes of an earlier step,
which has committed, stays. -/
def State.dropBanks (s : State) (c : Nat) (step : Option Nat) : State :=
  { s with grads := (s.grads.map (fun e =>
      let clean := fun (b : GBank) => if b.tile.isSome && b.ctx == c && (step == none || step == some b.step) then GBank.reset else b
      (e.1, { e.2 with bank0 := clean e.2.bank0, bank1 := clean e.2.bank1 }))).filter (fun e => e.2 != GUnit.reset) }

/-- The gate that abandons step k: its tiles go to EMPTY, and what its banks hold is disregarded. -/
def State.abandonFolds (s : State) (c k : Nat) : State :=
  let mine := fun (f : Fold) => f.ctx == c && f.step == k && !f.queued
  let s1 := (s.folds.filter mine).foldl (fun s f => s.putRecord (f.unit / 16) (f.unit % 16) f.recAddr 0 0 c) s
  ({ s1 with folds := s1.folds.filter (fun f => !mine f) } : State).dropBanks c (some k)

/-- A fold completes: G := G + S, state EMPTY. -/
def State.foldTile (s : State) (die g : Nat) (f : Fold) : State :=
  let r := s.sumTile die g f.ctx f.gAddr (some f.gAddr)
    (fun s k => let r := s.unitRead (f.sAddr + 4096 * k) 4096; (f32sOf r.1.data, Flag.carried r.1.flags, r.2)) 0 (upFrom 0 256)
  if r.1 then r.2.tilePoison die g f.ctx f.tile f.recAddr
  else
    let s1 := (r.2.putRecord die g f.recAddr 0 0 f.ctx).bump (gradPage die g) Reg.GRAD_FOLD_COUNT
    { s1 with folds := s1.folds.filter (fun h => !(h.ctx == f.ctx && h.tile == f.tile)) }

/-- Folds of a context run in ascending step order. -/
def execGradFoldComplete (die gunit tile : Nat) (s : State) : Host.Outcome State Fault Refusal :=
  ok (s.whenUp (fun s => match s.folds.find? (fun f => f.queued && f.unit == unitKey die gunit && f.tile == tile) with
    | some f => if s.folds.any (fun h => h.queued && h.ctx == f.ctx && h.step < f.step) then s else s.foldTile die gunit f
    | none => s))

end Sys2Proof.Machine
end

