-- ==== Sys2Proof/Machine/Kv.lean ====
section
/-!
DEFINITION. The KV cache (R217 to R225, R233, R234): slots and pages, page directories, the pools of frames and their census,
and the KV writer.
-/

namespace Sys2Proof.Machine

/-! ### Groups, pages and directory entries (R219 to R225) -/

/-- Tokens per page (R219). -/
def KvGroup.tokens (g : KvGroup) : Nat := 65536 / max 1 g.slotBytes
/-- Frames of a ring, and its slots C (R224). -/
def KvGroup.nRing (g : KvGroup) (W : Nat) : Nat := ceilDiv W g.tokens + 1
def KvGroup.cap (g : KvGroup) (W : Nat) : Nat := g.nRing W * g.tokens
/-- Directory entries of a group (R222). -/
def KvGroup.entries (g : KvGroup) (W : Nat) : Nat := if g.ring then g.nRing W else ceilDiv g.maxTokens g.tokens
/-- Directory entry of a page. -/
def KvGroup.entryOf (g : KvGroup) (W page : Nat) : Nat := g.dirOffset + (if g.ring then page % g.nRing W else page)
/-- Bytes of one head's K and V of one token (R219). -/
def KvGroup.entryBytes (g : KvGroup) : Nat := g.dim + g.dim / 8
/-- The ring slots C of a context with a ring group, and 0 without (R225). -/
def KvRec.ringCap (k : KvRec) : Nat :=
  match k.groups.find? (fun g => g.ring) with
  | some g => g.cap k.window
  | none => 0
/-- Earliest key that a row at position `p` attends (R202). -/
def KvGroup.lo (g : KvGroup) (W p : Nat) : Nat := if g.ring then p + 1 - W else 0

/-- Table 07-5. -/
structure DirEnt where
  state : Nat
  poison : Bool
  die : Nat
  far : Nat
  frame : Nat
  deriving DecidableEq, Repr

def DirEnt.empty : DirEnt := ⟨0, false, 0, 0, 0⟩
def DirEnt.ofNat (v : Nat) : DirEnt := ⟨bits v 63 61, bitAt v 60, bits v 59 58, bits v 55 32, bits v 23 0⟩
def DirEnt.toNat (e : DirEnt) : Nat :=
  e.state % 8 * 2 ^ 61 + b2n e.poison * 2 ^ 60 + e.die % 4 * 2 ^ 58 + e.far % 2 ^ 24 * 2 ^ 32 + e.frame % 2 ^ 24

def State.reqEnt (s : State) (i : Nat) : Option ReqEnt := look none s.req.entries i
def State.setReq (s : State) (i : Nat) (x : Option ReqEnt) : State :=
  { s with req := { s.req with entries := put none s.req.entries i x } }
def State.onReq (s : State) (i : Nat) (f : ReqEnt → ReqEnt) : State :=
  match s.reqEnt i with
  | some x => s.setReq i (some (f x))
  | none => s

/-- Read a directory entry of a request. -/
def State.dirEnt (s : State) (x : ReqEnt) (e : Nat) : DirEnt := DirEnt.ofNat (leNat (s.mem.view (x.dir + 8 * e) 8))
/-- The KV allocator writes a directory entry (producer kind 8). -/
def State.putDir (s : State) (addr c : Nat) (e : DirEnt) : State :=
  s.unitWrite addr (leBytes 8 e.toNat) (s.stepTag c) (producer 0 8 0) 0

/-- Directory entries that a context's record uses, in ascending group and page, as (group index, entry). -/
def KvRec.allEntries (k : KvRec) : List (Nat × Nat) :=
  k.groups.zipIdx.flatMap (fun g => (upFrom g.1.dirOffset (g.1.entries k.window)).map (fun e => (g.2, e)))

/-- The KV record of a request's context. -/
def State.kvOf (s : State) (x : ReqEnt) : KvRec :=
  match s.ctx x.ctx with
  | some c => c.kv
  | none => ⟨0, 0, 0, 0, 0, 0, []⟩

/-- Directory entries of a request that hold something, as (group index, entry index, entry). -/
def State.heldEntries (s : State) (x : ReqEnt) : List (Nat × Nat × DirEnt) :=
  ((s.kvOf x).allEntries.map (fun e => (e.1, e.2, s.dirEnt x e.2))).filter (fun e => e.2.2.state != 0)

/-- Is a request resident (R229)? -/
def State.resident (s : State) (x : ReqEnt) : Bool := (s.heldEntries x).all (fun e => e.2.2.state == 1 && !e.2.2.poison)

/-! ### Pools (R221, R223, R233) -/

abbrev kvpPage (die : Nat) : Page := diePage .kvp die

/-- Start or stop the spill engine of a die (R226). -/
def State.spillCheck (s : State) (die : Nat) : State :=
  let p := s.pool die
  let on := s.fld (kvpPage die) Reg.KVP_SPILL_ON 23 0
  let off := s.fld (kvpPage die) Reg.KVP_SPILL_OFF 23 0
  let run := s.fld (kvpPage die) Reg.KVP_SPILL_CFG 31 31 = 1
  if p.spilling then
    if off ≤ p.free || !run then (s.setPool die { p with spilling := false }).raise (kvpPage die) 2 else s
  else if run && p.free < on then (s.setPool die { p with spilling := true }).raise (kvpPage die) 1
  else s

/-- The lowest-numbered free frame from `f` on, looking at `n` frames. -/
def KvPool.lowFree (p : KvPool) : Nat → Nat → Option Nat
  | 0, _ => none
  | n + 1, f => if (look none p.held f).isNone then some f else p.lowFree n (f + 1)

/-- Can the pool give `n` frames? -/
def KvPool.canGive (p : KvPool) (n : Nat) : Bool := p.enable && n ≤ p.free

/-- Can a die's pool give `n` frames? One that reaches outside the device's part of T1 gives none: no engine addresses the carve-out
(R35). -/
def State.canGive (s : State) (die n : Nat) : Bool :=
  (s.pool die).canGive n && s.devRange (s.pool die).base ((s.pool die).frames * 0x10000)

/-- Take the lowest free frame of a die for a holder: the frame and the state after; nothing when none is free. -/
def State.takeFrame (s : State) (die : Nat) (h : Holder) : Option (Nat × State) :=
  let p := s.pool die
  match (if s.canGive die 1 then p.lowFree p.frames 0 else none) with
  | none => none
  | some f =>
    let p1 := { p with
      held := put none p.held f (some h)
      free := p.free - 1
      alloc := if h.kind = 0 then p.alloc + 1 else p.alloc
      transit := if h.kind = 0 then p.transit else p.transit + 1 }
    some (f, ((s.setPool die p1).bump (kvpPage die) Reg.KVP_ALLOC_COUNT).spillCheck die)

/-- A frame returns to its pool. -/
def State.freeFrame (s : State) (die f : Nat) : State :=
  let p := s.pool die
  match look none p.held f with
  | none => s
  | some h =>
    let p1 := { p with
      held := put none p.held f none
      free := p.free + 1
      alloc := if h.kind = 0 then p.alloc - 1 else p.alloc
      transit := if h.kind = 0 then p.transit else p.transit - 1 }
    ((s.setPool die p1).bump (kvpPage die) Reg.KVP_FREE_COUNT).spillCheck die

/-- A frame changes between resident and in transit. -/
def State.setHolder (s : State) (die f : Nat) (h : Holder) : State :=
  let p := s.pool die
  match look none p.held f with
  | none => s
  | some o =>
    s.setPool die { p with
      held := put none p.held f (some h)
      alloc := (if o.kind = 0 then p.alloc - 1 else p.alloc) + (if h.kind = 0 then 1 else 0)
      transit := (if o.kind = 0 then p.transit else p.transit - 1) + (if h.kind = 0 then 0 else 1) }

def State.addFar (s : State) (die : Nat) (up : Bool) : State :=
  let p := s.pool die
  s.setPool die { p with far := if up then p.far + 1 else p.far - 1 }

/-- A far slot returns to its context's spill area. -/
def State.freeFar (s : State) (c slot : Nat) : State := s.onCtx c (fun x => { x with farFree := x.farFree ++ [slot] })
/-- The far slot that a spill of the context takes next. -/
def Ctx.farSlot (x : Ctx) : Option Nat :=
  match x.farFree with
  | f :: _ => some f
  | [] => if x.farNext < x.kv.farSlots then some x.farNext else none
def Ctx.takeFar (x : Ctx) : Ctx :=
  match x.farFree with
  | _ :: l => { x with farFree := l }
  | [] => { x with farNext := x.farNext + 1 }

/-- Return what one directory entry of an ending request holds (R223, R232): a resident frame at once, a far slot at once, a
frame in transit when its transfer completes. -/
def State.returnEntry (s : State) (c : Nat) (x : ReqEnt) (e : Nat) : State :=
  let d := s.dirEnt x e
  if d.state = 1 then (s.freeFrame d.die d.frame).putDir (x.dir + 8 * e) c DirEnt.empty
  else if d.state = 3 then ((s.addFar d.die false).freeFar c d.far).putDir (x.dir + 8 * e) c DirEnt.empty
  else if d.state = 2 || d.state = 4 then
    match look none (s.pool d.die).held d.frame with
    | some h => s.setHolder d.die d.frame { h with orphan := true }
    | none => s
  else s

/-- Return everything a request holds. -/
def State.returnAll (s : State) (c : Nat) (x : ReqEnt) : List (Nat × Nat × DirEnt) → State
  | [] => s
  | e :: es => (s.returnEntry c x e.2.1).returnAll c x es

/-- Frames given at a step's opening gate return when no position below the committed length was ever written into them
(R223, first rule). -/
def State.returnNew (s : State) (c : Nat) (x : ReqEnt) : List (Nat × Nat) → State
  | [] => s
  | f :: fs => (if x.length ≤ f.2 then s.returnEntry c x f.1 else s).returnNew c x fs

/-! ### The frames of a step (R223) -/

/-- Pages that positions `a` to `a + n - 1` lie on. -/
def KvGroup.pages (g : KvGroup) (a n : Nat) : List Nat :=
  if n = 0 then [] else upFrom (a / g.tokens) ((a + n - 1) / g.tokens + 1 - a / g.tokens)

/-- The frames a step of `n` positions from L needs: (group, entry, first position), for pages without a frame. -/
def State.needFrames (s : State) (x : ReqEnt) (n : Nat) : List (KvGroup × Nat × Nat) :=
  let k := s.kvOf x
  k.groups.flatMap (fun g => ((g.pages x.length n).map (fun pg => (g, g.entryOf k.window pg, pg * g.tokens))).filter
    (fun e => (s.dirEnt x e.2.1).state == 0))

/-- Home dies whose pools cannot give what is needed, in group order. -/
def State.shortDies (s : State) (need : List (KvGroup × Nat × Nat)) : List Nat :=
  (need.map (fun e => e.1.home)).filter (fun d =>
    !s.canGive d ((need.filter (fun e => e.1.home == d)).length))

/-- Give the frames of a step to a request. -/
def State.giveFrames (s : State) (idx : Nat) (x : ReqEnt) : List (KvGroup × Nat × Nat) → State
  | [] => s
  | (g, e, _) :: es =>
    match s.takeFrame g.home ⟨idx, x.ctx, e, x.dir + 8 * e, 0, 0, false⟩ with
    | some (f, s1) => (s1.putDir (x.dir + 8 * e) x.ctx ⟨1, false, g.home, 0, f⟩).giveFrames idx x es
    | none => s.giveFrames idx x es

/-! ### Conservation (R234) -/

/-- Does a die's pool pass the audit? -/
def KvPool.sound (p : KvPool) : Bool :=
  p.free + p.alloc + p.transit == p.frames && p.held.length == p.alloc + p.transit

abbrev logPage : Page := diePage .log 0

/-- An audit has failed (R511): the rows of Table 18-2 that failed are marked, admission stops, and a record of severity 3 is
logged. The pages have latched CONSERVATION_FAULT. -/
def State.auditFailed (s : State) (rows : List Nat) : State :=
  let m := rows.foldl (fun m r => if bitAt m r then m else m + 2 ^ r) s.snap.consFailed
  let s1 : State := { s with req := { s.req with stopped := true }, snap := { s.snap with consFailed := m, lastPass := false } }
  ((s1.logEvent logPage Err.conservation (some 3) none 0 1 0).bump logPage Reg.LOG_AUDIT_FAIL_COUNT).raise logPage 1

/-- The KVP page of a die latches a failed audit. -/
def State.kvpFault (s : State) (die : Nat) : State :=
  ((s.setPool die { s.pool die with censusFail := true }).latchErr (kvpPage die) Err.conservation none 0 0).raise (kvpPage die) 3

/-- The audit of a die's pool. -/
def State.kvpAudit (s : State) (die : Nat) : State :=
  let p := s.pool die
  if p.sound then s
  else (s.kvpFault die).auditFailed [1]

def execKvpCensus (die : Nat) (s : State) : Host.Outcome State Fault Refusal :=
  ok (s.hostPage (diePage .kvp die) (fun s => s.kvpAudit die))

/-! ### KV entries (R104, R219, R220) -/

/-- E4M3 code of the scale of 16 elements: the smallest not below max|x| / 6 (R104). The rule is silent on an element that is NaN or
infinite: the maximum is taken over the finite elements. DESIGN CHOICE: log entry 83. -/
def kvScale (xs : List Nat) : Nat :=
  let m := ((xs.filter isFin32).map fAbs).foldl (fun acc v => if fLt acc v then v else acc) 0
  match fp32.decode m with
  | .fin _ mm e => e4m3.ceilCode mm 6 e
  | .nan | .inf _ => 0x7E

/-- E2M1 code of an element at a scale, and whether it saturated (Table 03-3). A NaN's element is a free value, and an infinite
element is stored as ±6 times the scale. DESIGN CHOICE: log entry 83. -/
def kvElem (scale x : Nat) : Nat × Bool :=
  match fp32.decode x, e4m3.decode scale with
  | .nan, _ => (Config.nanBits x scale % 16, true)
  | .inf n, _ => (b2n n * 8 + 7, true)
  | .fin n m e, .fin _ sm se =>
    if sm = 0 then (b2n n * 8, m != 0)
    else
      let d := e + 1 - se
      let num := m * 2 ^ d.toNat
      let den := sm * 2 ^ (-d).toNat
      (b2n n * 8 + e2m1Code num den, 12 * den < num)
  | .fin n _ _, _ => (b2n n * 8, false)

/-- One row of d elements as stored: packed elements, then the scales, and whether an element saturated. -/
def kvRow (xs : List Nat) : List Nat × Bool :=
  let gs := (upFrom 0 (xs.length / 16)).map (fun i => (xs.drop (16 * i)).take 16)
  let sc := gs.map kvScale
  let el := (List.zip gs sc).flatMap (fun g => g.1.map (kvElem g.2))
  let nib := (upFrom 0 (el.length / 2)).map (fun i => (nth (0, false) el (2 * i)).1 + 16 * (nth (0, false) el (2 * i + 1)).1)
  (nib ++ sc, el.any (fun e => e.2))

/-- Values of a stored row of d elements: the elements in half units, the scales (a NaN scale counts as zero, R204), and the
number of NaN scales. -/
structure KvVec where
  el : List Int
  sc : List FVal
  bad : Nat
  deriving DecidableEq, Repr

def kvDecode (d : Nat) (bs : List Nat) : KvVec :=
  let el := (upFrom 0 d).map (fun i => let b := nth 0 bs (i / 2); e2m1Cell (if i % 2 = 1 then b / 16 % 16 else b % 16))
  let sc := (upFrom 0 (d / 16)).map (fun i => e4m3.decode (nth 0 bs (d / 2 + i) % 256))
  let isNan := fun (v : FVal) => match v with | .fin _ _ _ => false | .nan | .inf _ => true
  ⟨el, sc.map (fun v => if isNan v then .fin false 0 0 else v), (sc.filter isNan).length⟩

/-- The attention-table entry of a layer. -/
def PlanImg.attOf (g : PlanImg) (layer : Nat) : Option AttEnt := g.att.find? (fun a => a.layer == layer)
/-- Rank of a layer among those of its group, in ascending layer (R219). -/
def PlanImg.rankOf (g : PlanImg) (a : AttEnt) : Nat :=
  (g.att.filter (fun b => b.group == a.group && b.layer < a.layer)).length

def emptyGroup : KvGroup := ⟨false, 0, 0, 0, 0, 0, 0, 0⟩
def KvRec.group (k : KvRec) (i : Nat) : KvGroup := nth emptyGroup k.groups i

/-- Byte offset of a position's entry for the `rank`-th layer and head `h` in its frame. -/
def KvGroup.entryOff (g : KvGroup) (pos rank h : Nat) : Nat :=
  pos % g.tokens * g.slotBytes + (rank * g.heads + h) * g.entryBytes

/-- T1 address of a frame. -/
def State.frameAddr (s : State) (die f : Nat) : Nat := (s.pool die).base + f * 0x10000

/-- The bytes of all heads' entries of one position, and whether an element saturated: `xs` holds, head by head, the K row and
then the V row. -/
def kvEntry (d : Nat) : Nat → List Nat → List Nat × Bool
  | 0, _ => ([], false)
  | h + 1, xs =>
    let k := kvRow (xs.take d)
    let v := kvRow ((xs.drop d).take d)
    let r := kvEntry d h (xs.drop (2 * d))
    (k.1 ++ v.1 ++ r.1, k.2 || v.2 || r.2)

/-- Zero bytes after a layer's entries: none before the last layer of a slot; after it the rest of the slot, and in the last
slot the rest of the frame (R219). -/
def KvGroup.padding (g : KvGroup) (pos rank : Nat) : Nat :=
  if rank + 1 = g.layers then
    g.slotBytes - g.layers * g.heads * g.entryBytes +
      (if pos % g.tokens + 1 = g.tokens then 65536 - g.tokens * g.slotBytes else 0)
  else 0

/-- The KV writer writes the entry of a rostered request at a layer and position (R220). -/
def State.kvWrite (s : State) (die : Nat) (l : Live) (r : Rostered) (x : ReqEnt) (a : AttEnt) (pos : Nat) (f : FabIn) :
    State :=
  let g := l.x.kv.group a.group
  let d := s.dirEnt x (g.entryOf l.x.kv.window (pos / g.tokens))
  let e := kvEntry g.dim g.heads (f.valsA (2 * g.dim * g.heads))
  let fl := f.marks ||| (if e.2 then Flag.bound else 0)
  let rank := l.p.img.rankOf a
  let addr := s.frameAddr d.die d.frame + g.entryOff pos rank 0
  let s1 := s.unitWrite addr ((e.1.map (fun b => BitVec.ofNat 8 b)) ++ List.replicate (g.padding pos rank) (0 : Byte))
    (s.stepTag l.c) (producer die 3 0) fl
  let s2 := s1.onCtx l.c (fun c => { c with run := c.run.map (fun rn => { rn with
    roster := rn.roster.map (fun q => if q.idx = r.idx then { q with written := q.written ++ [(a.layer, pos)] } else q) }) })
  if Flag.isPoison f.marks then s2.consumePoison (kvpPage die) l.c addr else s2

/-- Flits that hold the K and V rows of all heads of one position. -/
def KvGroup.rowFlits (g : KvGroup) : Nat := ceilDiv (2 * g.dim * g.heads) 32

/-- The rows reach the writer as flits on a ring port of the home die, from a fabric slot on (R26); the spec does not say
which slots they take. DESIGN CHOICE: log entry 68. -/
def execKvEntryWrite (die req layer pos : Nat) (ring : RingAt) (s : State) : Host.Outcome State Fault Refusal :=
  ok (s.whenUp (fun s => match s.reqEnt req with
    | none => s
    | some e => match s.live e.ctx with
      | none => s
      | some l => match l.r.roster.find? (fun r => r.idx == req), l.p.img.attOf layer with
        | some r, some a =>
          let g := l.x.kv.group a.group
          if l.r.inStep && e.length ≤ pos && pos < e.length + r.n && g.home == die && ring.port < 32 && 1 ≤ ring.slot
            && s.ringPast die ring.port (ring.slot + g.rowFlits) && !r.written.contains (layer, pos) then
            s.kvWrite die l r e a pos (fabIn (s.ringFlits die ring.port (upFrom ring.slot g.rowFlits)) [])
          else s
        | _, _ => s))

end Sys2Proof.Machine
end

