-- ==== Sys2Proof/Machine/Attend.lean ====
section
/-!
DEFINITION. The attention engines (R200 to R210, R250 to R252): windows, transfers, the block loop and the backward sweep.
-/

namespace Sys2Proof.Machine

abbrev attPage (die e : Nat) : Page := unitPage .att die e

/-! ### Arithmetic (R98, R99) -/

/-- exp of the engines. R99 bounds what it makes of an output row and states no bits: a result within the bound that R198 gives the
vector unit's EXP, and a free finite value where the operand is not finite. DEDUCED: log entry 29. -/
def attE (x : Nat) : Nat :=
  if isFin32 x then
    let v := fixOf (fp32.decode x)
    (elemRes (Config.attExp x) ⟨(expTo false v : Nat), (expTo true v : Nat)⟩).bits
  else
    let b := Config.attExp x % 2 ^ 32
    if isFin32 b then fAbs b else 0x7F7FFFFF

/-- ln of `l` in fixed point, from below: `n` halvings of a width `w` above `lo`. -/
def lnFrom (l : Nat) : Nat → Int → Int → Int
  | 0, lo, _ => lo
  | n + 1, lo, w => if expTo false (lo + w) ≤ l then lnFrom l n (lo + w) (w / 2) else lnFrom l n lo (w / 2)

/-- ln of a row's sum, within the same bound of the exact value; a sum that is not positive and finite has a free value. DEDUCED:
log entry 29. -/
def attL (x : Nat) : Nat :=
  let v := fixOf (fp32.decode x)
  if x = 0x3F800000 then 0
  else if isFin32 x && decide (0 < v) then
    let r := lnFrom v.toNat 68 (-(128 * fxOne : Nat)) (128 * fxOne : Nat)
    let w : Int := (2 ^ (fxBits - 60) : Nat)
    (elemRes (Config.attLn x) ⟨r - w, r + w⟩).bits
  else
    let b := Config.attLn x % 2 ^ 32
    if isFin32 b then b else 0

/-- An element of a stored row in half units. -/
def halfV (e : Int) : FVal := .fin (e < 0) e.natAbs (-1)

/-- The sum of up to 16 exact products, ascending. -/
def groupSum (q : List FVal) (k : List Int) : Nat :=
  (List.zip q k).foldl (fun acc p => (addV acc 0 (fp32.decode acc) (mulV p.1 (halfV p.2))).bits) 0

/-- dot(q, k) in the order of R98: the sum of each group of 16, its scaling, and the final sum; group `i` on, `n` groups. -/
def dotFrom (q : List FVal) (k : KvVec) : Nat → Nat → Nat → Nat
  | 0, _, acc => acc
  | n + 1, i, acc =>
    let g := groupSum ((q.drop (16 * i)).take 16) ((k.el.drop (16 * i)).take 16)
    let t := roundV g 0 (mulV (fp32.decode g) (nth (.fin false 0 0) k.sc i))
    dotFrom q k n (i + 1) (fAdd acc t.bits).bits

def dot98 (q : List FVal) (k : KvVec) : Nat := dotFrom q k k.sc.length 0 0

/-- The represented values of a stored row, exact in FP32. -/
def KvVec.vals (v : KvVec) : List Nat :=
  v.el.zipIdx.map (fun e => (roundV 0 0 (mulV (halfV e.1) (nth (.fin false 0 0) v.sc (e.2 / 16)))).bits)

/-! ### Task lists (R200, R206, R207) -/

/-- Query rows of a task: position-major, then head (log entry 20). -/
def AttTask.rowPos (t : AttTask) (qpk r : Nat) : Nat := t.pos + r / max 1 qpk

/-- A key of a block. -/
structure Key where
  pos : Nat
  k : KvVec
  v : KvVec
  deriving DecidableEq, Repr

/-- Split an entry's bytes into its K and V rows. -/
def keyOf (d pos : Nat) (bs : List Nat) : Key :=
  let h := d / 2 + d / 16
  ⟨pos, kvDecode d (bs.take h), kvDecode d (bs.drop h)⟩

/-- What a block read gives: keys, flags, and bytes. -/
structure BlkRd where
  keys : List Key
  flags : Nat
  deriving DecidableEq, Repr

/-- Read the entries of slots `p` on, `n` of them, of one block. -/
def State.readSlots (s : State) (g : KvGroup) (rank h base : Nat) : Nat → Nat → BlkRd × State
  | 0, _ => (⟨[], 0⟩, s)
  | n + 1, p =>
    let r := s.unitRead (base + g.entryOff p rank h) g.entryBytes
    let rest := r.2.readSlots g rank h base n (p + 1)
    (⟨keyOf g.dim p (r.1.data.map (fun b => b.toNat)) :: rest.1.keys, r.1.flags ||| rest.1.flags⟩, rest.2)

/-- Set the poison bit of the directory entry behind a frame, which the engine found (Table 14-10). -/
def State.poisonEntry (s : State) (h : Holder) : State :=
  let d := DirEnt.ofNat (leNat (s.mem.view h.addr 8))
  let s1 := s.putDir h.addr h.ctx { d with poison := true }
  s1.onReq h.req (fun x => if x.ctx = h.ctx then { x with poisonFound := true } else x)

/-- The holder of a frame by its T1 address on a die. -/
def State.holderAt (s : State) (die addr : Nat) : Option Holder :=
  look none (s.pool die).held ((addr - (s.pool die).base) / 0x10000)

/-- Read a T1 block of a task: the keys below the committed length. -/
def State.readBlock (s : State) (die e c : Nat) (g : KvGroup) (rank : Nat) (t : AttTask) (b : Nat × Nat) : BlkRd × State :=
  let r := s.readSlots g rank t.head b.1 g.tokens (b.2 * g.tokens)
  let s1 := (r.2.bump (attPage die e) Reg.ATT_BLOCK_COUNT).add64 (attPage die e) Reg.ATT_KV_BYTES (g.tokens * g.entryBytes)
  let rd : BlkRd := ⟨r.1.keys.filter (fun k => k.pos < t.pos), r.1.flags⟩
  if Flag.isPoison r.1.flags then
    let s2 := ((s1.bump (attPage die e) Reg.ATT_POISON_COUNT).raise (attPage die e) 3).consumePoison (attPage die e) c b.1
    match s2.holderAt die b.1 with
    | some h => (rd, s2.poisonEntry h)
    | none => (rd, s2)
  else (rd, s1)

def State.readBlocks (s : State) (die e c : Nat) (g : KvGroup) (rank : Nat) (t : AttTask) :
    List (Nat × Nat) → List BlkRd × State
  | [] => ([], s)
  | b :: bs =>
    let r := s.readBlock die e c g rank t b
    let rest := r.2.readBlocks die e c g rank t bs
    (r.1 :: rest.1, rest.2)

/-! ### The block loop (chapter 07) -/

/-- Running state of one row: maximum (none for −∞), sum, accumulator, and whether a step saturated. -/
structure RowSt where
  m : Option Nat
  l : Nat
  acc : List Nat
  sat : Bool
  deriving DecidableEq, Repr

def RowSt.start (d : Nat) : RowSt := ⟨none, 0, List.replicate d 0, false⟩

/-- One block of the loop for one row, given the row's keys as (score, values). -/
def RowSt.block (r : RowSt) (ks : List (Nat × List Nat)) : RowSt :=
  match ks with
  | [] => r
  | k :: rest =>
    let m0 := r.m.getD k.1
    let mNew := (k :: rest).foldl (fun m x => (fMax m x.1).bits) m0
    let c := match r.m with
      | some m => attE (fSub m mNew).bits
      | none => 0
    let r1 : RowSt := { r with l := (fMul r.l c).bits, acc := r.acc.map (fun a => (fMul a c).bits) }
    let r2 := (k :: rest).foldl (fun (q : RowSt) x =>
      let e := attE (fSub x.1 mNew).bits
      let ls := fAdd q.l e
      let as := List.zipWith (fun a v => fFma e v a) q.acc x.2
      { q with l := ls.bits, acc := as.map (fun a => a.bits), sat := q.sat || ls.sat || as.any (fun a => a.sat) }) r1
    { r2 with m := some mNew }

/-- A row's result: the output, m and lse; zero and −∞ for a row that has seen no key. -/
def RowSt.out (r : RowSt) (d : Nat) : List Nat × Nat × Nat :=
  match r.m with
  | some m => (r.acc.map (fun a => (fDiv a r.l).bits), m, (fAdd m (attL r.l)).bits)
  | none => (List.replicate d 0, inf32 true, inf32 true)

/-- Keys of a row in a block, with their scores. -/
def scored (scale lo hi : Nat) (q : List FVal) (b : BlkRd) : List (Nat × List Nat) :=
  (b.keys.filter (fun k => lo ≤ k.pos && k.pos ≤ hi)).map (fun k => ((fMul scale (dot98 q k.k)).bits, k.v.vals))

/-- Blocks that a sweep has read when its task has read `done` in all. -/
def seenIn (done per sweep : Nat) : Nat := min per (done - sweep * per)

/-- What a task delivers. -/
structure TaskOut where
  out : List (List Nat)
  m : List Nat
  lse : List Nat
  dkv : List (List Nat)
  sat : Bool
  deriving DecidableEq, Repr

/-- Forward results of a task: `bs` are its blocks, the fresh one last; `done` blocks read over all sweeps. -/
def forwardTask (g : KvGroup) (W qpk scale done : Nat) (t : AttTask) (bs : List BlkRd) : TaskOut :=
  let rows := t.q.zipIdx.map (fun q =>
    let p := t.rowPos qpk q.2
    let seen := bs.take (seenIn done bs.length (q.2 / 32))
    seen.foldl (fun r b => r.block (scored scale (g.lo W p) p (q.1.map fp32.decode) b)) (RowSt.start g.dim))
  let outs := rows.map (fun r => r.out g.dim)
  ⟨outs.map (fun o => o.1), outs.map (fun o => o.2.1), outs.map (fun o => o.2.2), [], rows.any (fun r => r.sat)⟩

/-! ### The backward sweep (R250) -/

/-- A row in a backward sweep. -/
structure BRow where
  pos : Nat
  q : List Nat
  dO : List Nat
  lse : Nat
  dD : Nat
  dq : List Nat
  deriving DecidableEq, Repr

def fmaVec (t : Nat) (x acc : List Nat) : List Nat := List.zipWith (fun a b => (fFma t b a).bits) acc x

/-- One key against one row: the new dk, dv and row. -/
def backKey (scale : Nat) (k : Key) (x : List Nat × List Nat) (r : BRow) : List Nat × List Nat × BRow :=
  let s := (fMul scale (dot98 (r.q.map fp32.decode) k.k)).bits
  let p := attE (fSub s r.lse).bits
  let dp := dot98 (r.dO.map fp32.decode) k.v
  let ds := (fMul p (fSub dp r.dD).bits).bits
  let t := (fMul scale ds).bits
  (fmaVec t r.q x.1, fmaVec p r.dO x.2, { r with dq := fmaVec t k.k.vals r.dq })

/-- All keys of a block against one row. -/
def backRow (lo : Nat → Nat) (scale : Nat) (r : BRow) (acc : List (Key × List Nat × List Nat)) :
    BRow × List (Key × List Nat × List Nat) :=
  acc.foldl (fun st e =>
    if lo r.pos ≤ e.1.pos && e.1.pos ≤ r.pos then
      let x := backKey scale e.1 e.2 st.1
      (x.2.2, st.2 ++ [(e.1, x.1, x.2.1)])
    else (st.1, st.2 ++ [e])) (r, [])

/-- One block against the rows of a sweep: the rows, and the dk and dv rows it delivers. -/
def backBlock (d : Nat) (lo : Nat → Nat) (scale : Nat) (rows : List BRow) (b : BlkRd) : List BRow × List (List Nat) :=
  let z := List.replicate d 0
  let st := rows.foldl (fun (st : List BRow × List (Key × List Nat × List Nat)) r =>
    let x := backRow lo scale r st.2
    (st.1 ++ [x.1], x.2)) ([], b.keys.map (fun k => (k, z, z)))
  (st.1, st.2.flatMap (fun e => [e.2.1, e.2.2]))

/-- Sweeps of up to 32 rows, `n` of them at most. -/
def backSweeps (d : Nat) (lo : Nat → Nat) (scale done : Nat) (bs : List BlkRd) : Nat → Nat → List BRow →
    List BRow × List (List Nat)
  | 0, _, _ => ([], [])
  | n + 1, k, rows =>
    if rows.isEmpty then ([], [])
    else
      let st := (bs.take (seenIn done bs.length k)).foldl (fun (st : List BRow × List (List Nat)) b =>
        let x := backBlock d lo scale st.1 b
        (x.1, st.2 ++ x.2)) (rows.take 32, [])
      let rest := backSweeps d lo scale done bs n (k + 1) (rows.drop 32)
      (st.1 ++ rest.1, st.2 ++ rest.2)

def backwardTask (g : KvGroup) (W qpk scale done : Nat) (t : AttTask) (bs : List BlkRd) : TaskOut :=
  let rows := t.q.zipIdx.map (fun q => (⟨t.rowPos qpk q.2, q.1, nth [] t.dO q.2, nth 0 t.lse q.2, nth 0 t.dD q.2,
    List.replicate g.dim 0⟩ : BRow))
  let r := backSweeps g.dim (fun p => g.lo W p) scale done bs rows.length 0 rows
  ⟨r.1.map (fun x => x.dq), [], [], r.2, false⟩

/-! ### Windows and transfers (R205, R208) -/

/-- Run `f` on the word of an engine in a step slot, when its operation is `op`. -/
def State.onAtt (s : State) (die e slot op : Nat) (f : State → Live → Nat → State) : State :=
  match s.unitWord 4 die e slot with
  | some (l, w) => if bits w 63 60 = op then f s l w else s
  | none => s

/-- Attention-table entry and group of the layer of an engine's window. -/
def Live.attLayer (l : Live) (layer : Nat) : AttEnt := (l.p.img.attOf layer).getD ⟨layer, 0, 0, 1, 0, 0, 0xFF, 0⟩
def Live.attGroup (l : Live) (layer : Nat) : KvGroup := l.x.kv.group (l.attLayer layer).group

/-- Step slot of the engine's next WINDOW_CLOSE after `slot`. -/
def Live.closeAfter (l : Live) (die e slot : Nat) : Nat :=
  ((l.words 4 die e 0).find? (fun w => slot < w.1 && bits w.2 63 60 == 2)).elim slot (fun w => w.1)

def AttEng.listOf (a : AttEng) (layer : Nat) : List AttTask :=
  ((a.lists.find? (fun x => x.1 == layer)).map (fun x => x.2)).getD []

def execWindowOpen (die engine slot : Nat) (s : State) : Host.Outcome State Fault Refusal :=
  ok (s.whenUp (fun s => s.onAtt die engine slot 1 (fun s l w =>
    let a := s.att die engine
    s.setAtt die engine { a with
      state := 1
      ctx := l.c
      layer := bits w 59 50
      mode := bits w 49 48
      share := bits w 47 32
      openSlot := slot
      length := l.closeAfter die engine slot - slot
      tasks := a.listOf (bits w 59 50)
      qFlits := []
      fFlits := []
      sent := 0 })))

/-- Split a list into rows by length. -/
def takeRow (n : Nat) (l : List Nat) : List Nat := (l ++ List.replicate n 0).take n

/-- A query row on its way in: FP8 elements as FP32, saturated elements, and whether it was not finite (R204). -/
def queryRow (xs : List Nat) : List Nat × Nat × Bool :=
  if xs.all isFin32 then
    (xs.map (fun x => (roundV 0 0 (e4m3.decode (toE4m3 x).1)).bits), (xs.filter (fun x => (toE4m3 x).2)).length, false)
  else (xs.map (fun _ => 0), 0, true)

/-- 32-bit words of one query row on the X port: d FP32 values and, in backward mode, d BF16 values, lse and D (R208). -/
def rowWords (d : Nat) (back : Bool) : Nat := if back then d + ceilDiv d 2 + 2 else d

/-- BF16 values of a list of words, two in each, the low half first. -/
def bf16Of (d : Nat) (ws : List Nat) : List Nat :=
  (upFrom 0 d).map (fun i => ofBf16 (nth 0 ws (i / 2) / 2 ^ (16 * (i % 2)) % 2 ^ 16))

/-- Take the rows of one task from its words: the task, saturations, and rows treated as zero. -/
def takeRows (d : Nat) (back : Bool) (t : AttTask) : Nat → List Nat → AttTask × Nat × Nat
  | 0, _ => (t, 0, 0)
  | n + 1, xs =>
    let q := queryRow (takeRow d xs)
    let x1 := xs.drop d
    let x2 := x1.drop (ceilDiv d 2)
    let t1 : AttTask := if back then { t with
      q := t.q ++ [q.1]
      dO := t.dO ++ [bf16Of d x1]
      lse := t.lse ++ [nth 0 x2 0]
      dD := t.dD ++ [nth 0 x2 1] } else { t with q := t.q ++ [q.1] }
    let t2 := if q.2.1 ≠ 0 || q.2.2 then { t1 with flags := t1.flags ||| Flag.bound } else t1
    let r := takeRows d back t2 n (xs.drop (rowWords d back))
    (r.1, q.2.1 + r.2.1, b2n q.2.2 + r.2.2)

/-- The words `o` to `o + n - 1` of a run of flits, and the flags that those flits bring. -/
def flitRange (fs : List Flit) (o n : Nat) : List Nat × Nat :=
  let hit := (fs.drop (o / 32)).take ((o + n + 31) / 32 - o / 32)
  ((((hit.flatMap Flit.words).map (fun w => w.toNat)).drop (o % 32)).take n, if n = 0 then 0 else (fabIn hit []).marks)

/-- Take the rows of all tasks in list order, from word `o` of the flits on. -/
def takeTasks (d qpk : Nat) (back : Bool) (fs : List Flit) : Nat → List AttTask → List AttTask × Nat × Nat
  | _, [] => ([], 0, 0)
  | o, t :: ts =>
    let n := t.n * qpk * rowWords d back
    let x := flitRange fs o n
    let r := takeRows d back { t with q := [], dO := [], lse := [], dD := [], flags := t.flags ||| x.2 } (t.n * qpk) x.1
    let rest := takeTasks d qpk back fs (o + n) ts
    (r.1 :: rest.1, r.2.1 + rest.2.1, r.2.2 + rest.2.2)

/-- Count what a transfer found (R204). -/
def State.attCounts (s : State) (die e sat nonfin : Nat) : State :=
  let p := attPage die e
  let s1 := if sat = 0 then s else (s.bumpN p Reg.ATT_FP8_SAT_COUNT sat).raise p 4
  if nonfin = 0 then s1 else (s1.bumpN p Reg.ATT_NONFINITE_COUNT nonfin).raise p 2

/-- Poisoned flits are operands the context consumes (R433). -/
def State.attPoison (s : State) (die e c : Nat) (fs : List Flit) : State :=
  if Flag.isPoison (fabIn fs []).marks then s.consumePoison (attPage die e) c 0 else s

/-- Run `f` on a transfer word into an engine with the flits of its slots, once the router of its X port has completed the last of
them; `sram` is what the read of the engine's SRAM finds to which they go. -/
def State.onTake (s : State) (die e slot : Nat) (sram : SramRead) (op : Nat) (f : State → Live → List Flit → State) : State :=
  s.onAtt die e slot op (fun s l w =>
    let n := bits w 31 0
    if s.routerPast die (attBent e) (l.fabSlot slot + n) then
      f (s.sramSeen (attPage die e) sram (some l.c)) l (sramFlits sram (s.takeFlits die (attBent e) 5 (upFrom (l.fabSlot slot) n)))
    else s)

/-- A word goes on where the window's last one stopped; what it adds to the counts is what the rows now hold beyond what they held. -/
def execTakeQuery (die engine slot : Nat) (sram : SramRead) (s : State) : Host.Outcome State Fault Refusal :=
  ok (s.whenUp (fun s => s.onTake die engine slot sram 3 (fun s l fs =>
    let a := s.att die engine
    let take := takeTasks (l.attGroup a.layer).dim (l.attLayer a.layer).qPerKv (a.mode == 2)
    let old := take a.qFlits 0 a.tasks
    let r := take (a.qFlits ++ fs) 0 a.tasks
    ((s.setAtt die engine { a with tasks := r.1, qFlits := a.qFlits ++ fs }).attCounts die engine (r.2.1 - old.2.1)
      (r.2.2 - old.2.2)).attPoison die engine l.c fs)))

/-- Take the fresh entries of one task, as the KV writer stores them: K and V rows, and whether an element saturated. -/
def takeFresh (d : Nat) : Nat → List Nat → List (List Nat × List Nat) × Bool
  | 0, _ => ([], false)
  | n + 1, xs =>
    let k := kvRow (takeRow d xs)
    let v := kvRow (takeRow d (xs.drop d))
    let r := takeFresh d n (xs.drop (2 * d))
    ((k.1, v.1) :: r.1, k.2 || v.2 || r.2)

def takeFreshTasks (d : Nat) (fs : List Flit) : Nat → List AttTask → List AttTask
  | _, [] => []
  | o, t :: ts =>
    let n := t.n * (2 * d)
    let x := flitRange fs o n
    let r := takeFresh d t.n x.1
    { t with fresh := r.1, flags := t.flags ||| x.2 ||| (if r.2 then Flag.bound else 0) } :: takeFreshTasks d fs (o + n) ts

def execTakeFresh (die engine slot : Nat) (sram : SramRead) (s : State) : Host.Outcome State Fault Refusal :=
  ok (s.whenUp (fun s => s.onTake die engine slot sram 4 (fun s l fs =>
    let a := s.att die engine
    let ts := takeFreshTasks (l.attGroup a.layer).dim (a.fFlits ++ fs) 0 a.tasks
    (s.setAtt die engine { a with tasks := ts, fFlits := a.fFlits ++ fs }).attPoison die engine l.c fs)))

/-- The fresh block of a task. -/
def AttTask.freshBlk (t : AttTask) (d : Nat) : BlkRd :=
  ⟨t.fresh.zipIdx.map (fun f => ⟨t.pos + f.2, kvDecode d f.1.1, kvDecode d f.1.2⟩), 0⟩

/-- Groups with a NaN scale among the keys of blocks. -/
def badGroups (bs : List BlkRd) : Nat := sumL (bs.map (fun b => sumL (b.keys.map (fun k => k.k.bad + k.v.bad))))

/-- Blocks that a task must read: its T1 blocks and the fresh block, once for each sweep. -/
def AttTask.total (t : AttTask) (qpk : Nat) : Nat := ceilDiv (t.n * qpk) 32 * (t.blocks.length + 1)

/-- An overrun (R210). -/
def State.overrun (s : State) (die e c layer t : Nat) : State :=
  let p := attPage die e
  (((s.bump p Reg.ATT_OVERRUN_COUNT).wr p Reg.ATT_LAST_OVERRUN (packW [(31, 1), (20, c % 1024), (0, layer % 1024)])).raise p
    1).strike c t

/-- One task at the close of its window: the task with its results, its row maxima, and the state. -/
def State.closeTask (s : State) (die e : Nat) (l : Live) (a : AttEng) (done t0 : Nat) (t : AttTask) :
    AttTask × List Nat × State :=
  let at_ := l.attLayer a.layer
  let g := l.attGroup a.layer
  let total := t.total at_.qPerKv
  let n := min done total
  let per := t.blocks.length + 1
  let r := s.readBlocks die e l.c g (l.p.img.rankOf at_) t (t.blocks.take (seenIn n per 0))
  let s1 := (upFrom 1 (ceilDiv (t.n * at_.qPerKv) 32 - 1)).foldl (fun s k =>
    let b := min t.blocks.length (seenIn n per k)
    (s.bumpN (attPage die e) Reg.ATT_BLOCK_COUNT b).add64 (attPage die e) Reg.ATT_KV_BYTES (b * g.tokens * g.entryBytes)) r.2
  let bs := r.1 ++ (if r.1.length = t.blocks.length then [t.freshBlk g.dim] else [])
  let bad := badGroups bs
  let full := bs ++ List.replicate (per - bs.length) ⟨[], 0⟩
  let o := if a.mode = 2 then backwardTask g l.x.kv.window at_.qPerKv at_.scale n t full
    else forwardTask g l.x.kv.window at_.qPerKv at_.scale n t full
  let fl := t.flags ||| bs.foldl (fun f b => f ||| Flag.carried b.flags) 0 |||
    (if bad ≠ 0 || o.sat || n < total then Flag.bound else 0)
  let s2 := s1.attCounts die e 0 bad
  let s3 := if n < total then s2.overrun die e l.c a.layer t0 else s2.bump (attPage die e) Reg.ATT_TASK_COUNT
  ({ t with flags := fl, out := o.out, outLse := o.lse, dkv := o.dkv }, o.m, s3)

/-- Row statistics of a task, 8 bytes a row (R203). -/
def statBytes (m lse : List Nat) : Bytes := (List.zip m lse).flatMap (fun r => leBytes 4 r.1 ++ leBytes 4 r.2)

/-- Where a task's statistics go: the layer's rows stand in the order of the whole roster, and in each request by KV head, whichever
engine runs the task. DEDUCED: log entry 85. -/
def Live.statAddr (l : Live) (at_ : AttEnt) (g : KvGroup) (t : AttTask) : Nat :=
  let before := sumL ((l.r.roster.takeWhile (fun r => r.idx != t.req)).map (fun r => r.n))
  (l.membind at_.statsBinding).1 + at_.statsOffset + 8 * at_.qPerKv * (g.heads * before + t.head * t.n)

/-- Close the tasks in order. -/
def State.closeTasks (s : State) (die e : Nat) (l : Live) (a : AttEng) (t0 : Nat) : List Nat → List AttTask →
    List AttTask × State
  | _, [] => ([], s)
  | done, t :: ts =>
    let at_ := l.attLayer a.layer
    let r := s.closeTask die e l a (done.headD (t.total at_.qPerKv)) t0 t
    let s1 := if a.mode = 1 && at_.statsBinding != 0xFF then
      r.2.2.unitWrite (l.statAddr at_ (l.attGroup a.layer) t) (statBytes r.2.1 r.1.outLse) (r.2.2.stepTag l.c) (producer die 1 e)
        r.1.flags else r.2.2
    let rest := s1.closeTasks die e l a t0 done.tail ts
    (r.1 :: rest.1, rest.2)

/-- WINDOW_CLOSE: `done` says how many blocks each task had read when the window closed. -/
def State.windowClose (s : State) (die e : Nat) (l : Live) (done : List Nat) (t : Nat) : State :=
  let a := s.att die e
  let r := s.closeTasks die e l a t done a.tasks
  let busy := r.2.draw % (a.length + 1)
  ((r.2.spend.setAtt die e { a with state := 2, tasks := r.1 }).add64 (attPage die e) Reg.ATT_BUSY_SLOTS busy)

def execWindowClose (die engine slot : Nat) (done : List Nat) (t : Nat) (s : State) : Host.Outcome State Fault Refusal :=
  ok (s.whenUp (fun s => s.onAtt die engine slot 2 (fun s l _ => s.windowClose die engine l done t)))

/-- Does another SEND of the engine's window follow a step slot? -/
def Live.sendsAfter (l : Live) (die e slot : Nat) : Bool :=
  match (l.words 4 die e 0).find? (fun w => slot < w.1) with
  | some w => bits w.2 63 60 == 5
  | none => false

/-- Values with the flags that go with them as flits of 32, up to `n` of them. -/
def flitsBy : Nat → List (Nat × Nat) → List Flit
  | 0, _ => []
  | n + 1, vs =>
    let fl := (vs.take 32).foldl (fun f v => f ||| v.2 % 16) 0
    ⟨leNat ((vs.take 32).flatMap (fun v => leBytes 4 v.1)), Flag.isPoison fl, false, 0, fl, 0, []⟩ :: flitsBy n (vs.drop 32)

/-- The flits of a window's SEND words: the data of its tasks, the marks of a task with its data (R204, R210). -/
def AttEng.flits (a : AttEng) : List Flit :=
  let vals := a.tasks.flatMap (fun t => ((t.dkv ++ t.out).flatten).map (fun v => (v, t.flags)))
  flitsBy (ceilDiv vals.length 32) vals

/-- SEND: the outputs leave over the fabric on the engine's X port, from where the window's last SEND stopped, and empty flits up to
the word's count; after the last one of a window the engine is idle. -/
def execAttSend (die engine slot : Nat) (s : State) : Host.Outcome State Fault Refusal :=
  ok (s.whenUp (fun s => s.onAtt die engine slot 5 (fun s l w =>
    let a := s.att die engine
    let n := bits w 31 0
    if s.isGiven die (attBent engine) 5 (l.fabSlot slot) then s
    else
      let s1 := (s.stage die (attBent engine) 5 (l.fabSlot slot) ((a.flits.drop a.sent).take n)).give die (attBent engine) 5
        (l.fabSlot slot)
      if l.sendsAfter die engine slot then s1.setAtt die engine { a with sent := a.sent + n }
      else s1.setAtt die engine { a with state := 0, tasks := [], qFlits := [], fFlits := [], sent := 0 })))

end Sys2Proof.Machine
end

