-- ==== Sys2Proof/Machine/Operands.lean ====
section
/-!
DEFINITION. The operand forms of descriptors (Tables 11-10, 11-11 and the opcode tables of chapters 12, 13 and 15) and the
flights that hold them.
-/

namespace Sys2Proof.Machine

/-- Field of `n` bytes at `off` of a descriptor. -/
def dField (d : Bytes) (off n : Nat) : Nat := fieldB d off n

def dOpcode (d : Bytes) : Nat := dField d 0 1
def dWaitBefore (d : Bytes) : Bool := bitAt (dField d 1 1) 0
def dSignalAfter (d : Bytes) : Bool := bitAt (dField d 1 1) 1
def dErrorOnly (d : Bytes) : Bool := bitAt (dField d 1 1) 2
def dFence (d : Bytes) : Bool := bitAt (dField d 1 1) 3
def dTag (d : Bytes) : Nat := dField d 4 4
def dWaitHandle (d : Bytes) : Nat := dField d 8 4
def dSignalHandle (d : Bytes) : Nat := dField d 12 4
def dWaitValue (d : Bytes) : Nat := dField d 16 8
def dSignalAdd (d : Bytes) : Nat := dField d 24 8
/-- 32-bit handle argument at 0x20 and the other argument words of Table 11-11. -/
def dHandle (d : Bytes) : Nat := dField d 0x20 4

/-- The flight with a given queue and index. -/
def isFlight (q ix : Nat) (f : Flight) : Bool := f.q == q && f.ix == ix
def State.flight (s : State) (q ix : Nat) : Option Flight := s.que.flights.find? (isFlight q ix)

/-- Change the flight with a given queue and index. -/
def State.onFlight (s : State) (q ix : Nat) (g : Flight → Flight) : State :=
  { s with que := { s.que with flights := s.que.flights.map (fun f => if isFlight q ix f then g f else f) } }

/-- The operation of a flight has ended with a status and a result. -/
def State.finish (s : State) (q ix status detail result : Nat) : State :=
  s.onFlight q ix (fun f => { f with phase := .done, status := status, detail := detail, result := result })

/-- The operation of a flight waits for something else to end it. -/
def State.waitFlight (s : State) (q ix : Nat) : State := s.onFlight q ix (fun f => { f with phase := .waiting })

/-- Run an operation on a started flight whose opcode is `op`; any other flight cannot take this step. -/
def State.runFlight (s : State) (q ix op : Nat) (f : State → Flight → State) : State :=
  match s.flight q ix with
  | some fl => if fl.phase = .started && dOpcode fl.desc == op then s.whenUp (fun s => f s fl) else s
  | none => s

def State.queue (s : State) (q : Nat) : Option Queue := look none s.que.queues q
def State.setQueue (s : State) (q : Nat) (x : Option Queue) : State :=
  { s with que := { s.que with queues := put none s.que.queues q x } }

/-- The page of the block that owns an opcode (R523). -/
def opPage (die op : Nat) : Page :=
  if 0x0B ≤ op && op ≤ 0x0E then diePage .plan die
  else if 0x20 ≤ op && op < 0x30 then diePage .req 0
  else if 0x30 ≤ op && op < 0x40 then diePage .wgt die
  else diePage .que 0

/-- The context that a descriptor names, for the latch of a failure (R523). -/
def descCtx (d : Bytes) : Option Nat :=
  let op := dOpcode d
  if (op = 0x09 || op = 0x0A || op = 0x0B || op = 0x0E || op = 0x0F || op = 0x20 || (0x30 ≤ op && op ≤ 0x32))
    && hType (dHandle d) == 1 && hIdx (dHandle d) < 1024 then some (hIdx (dHandle d))
  else none

/-- A failure that validation or the checks of an opcode's chapter find (R345, R523): nothing moves, the code is latched with
the context on the page that owns the opcode, and the flight completes with it. -/
def State.failOp (s : State) (fl : Flight) (code detail : Nat) : State :=
  (s.latchErr (opPage fl.home (dOpcode fl.desc)) code (descCtx fl.desc) detail 0).finish fl.q fl.ix code detail 0

/-- A unit finds later, on its own page, that an operation that passed its checks fails (R66, R523). -/
def State.lateFail (s : State) (p : Page) (fl : Nat × Nat) (code : Nat) : State :=
  (s.latchErr p code ((s.flight fl.1 fl.2).bind (fun f => descCtx f.desc)) 0 0).finish fl.1 fl.2 code 0 0

/-- Success with a result. -/
def State.passOp (s : State) (fl : Flight) (result : Nat) : State := s.finish fl.q fl.ix 0 0 result

/-- Go on when a check's code is 0, fail with it otherwise. -/
def State.checked (s : State) (fl : Flight) (code : Nat) (k : State) : State :=
  if code = 0 then k else s.failOp fl code 0

end Sys2Proof.Machine
end

