-- ==== Sys2Proof/Machine/Cells.lean ====
section
/-!
DEFINITION. The cells of an array plane with their check rows and check columns (R106, R127, R128), what the array sums on its
lines and check nodes (R108, R109, R125, R129), and the conversion of a sum (R83 to R87, R114, R150).
-/

namespace Sys2Proof.Machine

/-! ### Cells (R106, R67, R81) -/

/-- The five bits of a cell: the sign in bit 4, the magnitude below it. -/
def cellOf (v : Int) : Nat := (if v < 0 then 16 else 0) + v.natAbs % 16
/-- The value of a cell, −15 to +15; magnitude 0 with either sign is 0. -/
def cellVal (n : Nat) : Int := if bitAt n 4 then -((n % 16 : Nat) : Int) else ((n % 16 : Nat) : Int)

/-- Cell value that an element of a plane image is written as. -/
def fmtCell (f : PlaneFmt) (n : Nat) : Int :=
  match f with
  | .int4 | .mxint8hi => int4Cell n
  | .e2m1 | .mxfp4 => e2m1Cell n
  | .low | .mxint8lo => lowCell n

/-- The slices of a group sum: 16 · high + low, both with the sign of the sum (R127). -/
def highSum (s : Int) : Int := if s < 0 then -((s.natAbs / 16 : Nat) : Int) else ((s.natAbs / 16 : Nat) : Int)
def lowSum (s : Int) : Int := if s < 0 then -((s.natAbs % 16 : Nat) : Int) else ((s.natAbs % 16 : Nat) : Int)
def checkSlice (j : Nat) (s : Int) : Int := if j % 2 = 0 then highSum s else lowSum s

/-- The sum of 16 values. -/
def sum16 (f : Nat → Int) : Int := (upFrom 0 16).foldl (fun acc i => acc + f i) 0

/-- Cell (r, c) of the 576 × 576 cells over given data cells: check columns 512 + 2g and 513 + 2g hold the sum of data columns
16g to 16g + 15 of the row (R127), check rows 512 + 2h and 513 + 2h that of data rows 16h to 16h + 15 of the column, and the cells
where check rows cross check columns hold zero (R128). -/
def fullCell (data : Nat → Nat → Int) (r c : Nat) : Int :=
  if r < 512 then
    (if c < 512 then data r c else checkSlice (c - 512) (sum16 (fun i => data r (16 * ((c - 512) / 2) + i))))
  else if c < 512 then checkSlice (r - 512) (sum16 (fun i => data (16 * ((r - 512) / 2) + i) c))
  else 0

/-- All cells of a plane by key 576 · row + column; a zero cell is not listed. -/
def planeCells (cell : Nat → Nat → Int) : Sparse Nat :=
  (upFrom 0 576).flatMap (fun r => (upFrom 0 576).filterMap (fun c =>
    if cell r c = 0 then none else some (576 * r + c, cellOf (cell r c))))

/-- The value of a cell of a plane. -/
def Plane.at (pl : Plane) (r c : Nat) : Int := cellVal (look 0 pl.cells (576 * r + c))

/-! ### Sums on the lines (R108, R109, R125) -/

/-- The exact sums of the 576 output lines over the driven lines: data rows in a forward pass, data columns in a transposed one.
Check rows and check columns are never driven. -/
def planeSums (pl : Plane) (transposed : Bool) (q : List Int) : List Int :=
  pl.cells.foldl (fun acc e =>
    let r := e.1 / 576
    let c := e.1 % 576
    let inp := if transposed then c else r
    let out := if transposed then r else c
    if inp < 512 then acc.modify out (fun x => x + nth 0 q inp * cellVal e.2) else acc) (List.replicate 576 0)

/-- The charges that the lines hold at the sample: the sums, each with what a fault adds (R87). -/
def heldSums (sums : List Int) (n i : Nat) : List Int := sums.zipIdx.map (fun y => y.1 + Config.disturb n (1024 * i + y.2))

/-- The check node of group `g`: its 16 data lines, minus 16 times the high check line, minus the low one (R129). -/
def nodeSum (held : List Int) (g : Nat) : Int :=
  sum16 (fun i => nth 0 held (16 * g + i)) - 16 * nth 0 held (512 + 2 * g) - nth 0 held (513 + 2 * g)

/-! ### Conversion (R114, R150) -/

/-- The corrected analogue term in 1/16 product unit: e × 2^k × gain − offset, rounded once (R150). -/
def corr16 (code : Int) (k : Nat) (w : W32) : Int :=
  rneI (code * (2 ^ k : Nat) * (fieldW w 31 16 : Nat) - signedOf 16 (fieldW w 15 0) * 2 ^ 11) (2 ^ 11)

/-- The code whose corrected term comes nearest a sum. -/
def inverseCode (k : Nat) (w : W32) (sum : Int) : Int :=
  rneI ((16 * sum + signedOf 16 (fieldW w 15 0)) * 2 ^ 11) (2 ^ k * fieldW w 31 16)

/-- Is a code one that a line within its figures may give for a sum: at most one code from it, as it is read (R114) and as it is
corrected (R83), and for a check node beyond 3 codes when the charge is (R87)? -/
def goodCode (node : Bool) (k : Nat) (w : W32) (sum code : Int) : Bool :=
  (code * (2 ^ k : Nat) - sum).natAbs ≤ 2 ^ k && (corr16 code k w - 16 * sum).natAbs ≤ 16 * 2 ^ k &&
    (!node || decide (48 * 2 ^ k < (corr16 code k w).natAbs) == decide (48 * 2 ^ k < (16 * sum).natAbs))

/-- The code of a line or check node (R114). On an array within its limits the error is free within the bounds of R83 and R87;
on any other it is free. -/
def adcCode (healthy node : Bool) (n line k : Nat) (w : W32) (sum : Int) : Int :=
  let near := rneI sum (2 ^ k)
  clampI (-511) 511 (if healthy then
    (([near + (Config.adcError n line % 3 - 1), near, near + 1, near - 1] : List Int).find? (goodCode node k w sum)).getD
      (inverseCode k w sum)
  else near + Config.adcError n line)

end Sys2Proof.Machine
end

