-- ==== Sys2Proof/Machine/Knots.lean ====
section
/-!
DEFINITION. The knot map (R310, R311): its bytes, a new version of it, and retirements of arrays, engines, units, links and
routers (R134 to R137).
-/

namespace Sys2Proof.Machine

/-- A set of bit numbers as a number. -/
def maskOf (l : List Nat) : Nat := l.foldl (fun acc b => if bitAt acc b then acc else acc + 2 ^ b) 0

/-- A die record (Table 10-6), 160 bytes. -/
def KnotDie.bytes (d : KnotDie) : Bytes :=
  leBytes 16 (maskOf d.bents) ++ leBytes 16 (maskOf d.routers) ++ leBytes 32 (maskOf d.links) ++
    leBytes 64 (maskOf d.arrays) ++ leBytes 2 (maskOf d.att) ++ leBytes 2 (maskOf d.grad) ++ leBytes 1 d.channels ++
    List.replicate 27 (0 : Byte)

/-- The knot map up to its CRC (Table 10-5); the record of an absent die is zero. -/
def KnotMap.body (m : KnotMap) (dies : Nat) : Bytes :=
  leBytes 4 1 ++ leBytes 4 m.version ++ leBytes 8 m.issued ++ leBytes 4 m.cause ++ leBytes 4 (2 ^ dies - 1) ++
    List.replicate 8 (0 : Byte) ++
    ((upFrom 0 4).map (fun n => if n < dies then (nth ⟨[], [], [], [], [], [], 0⟩ m.dies n).bytes
      else List.replicate 160 (0 : Byte))).flatten

/-- The whole knot map with its CRC-32C (R310). -/
def KnotMap.bytes (m : KnotMap) (dies : Nat) : Bytes := m.body dies ++ leBytes 4 (crc32c (m.body dies))

/-- Raise a bit on the page of a block of every present die. -/
def State.raiseDies (s : State) (b : Block) (bit : Nat) : Nat → State
  | 0 => s
  | n + 1 => (s.raiseDies b bit n).raise (diePage b n) bit

/-- Install a new version of the knot map (R311): the version rises by 1, both copies go to the log flash, PRES follows
(R54), the FAB pages report it (R320), and it is logged (R514). -/
def State.newKnots (s : State) (cause issued : Nat) (dies : List KnotDie) : State :=
  let m : KnotMap := ⟨s.fab.knots.version + 1, issued, cause, dies⟩
  let s1 := { s with fab := { s.fab with knots := m }
                     flash := { s.flash with knotA := some (m.bytes s.dies), knotB := some (m.bytes s.dies) } }
  ((s1.raiseDies .pres 1 s.dies).raiseDies .fab 4 s.dies).logEvent (diePage .fab 0) 0 none none 0 4 0

/-- Change one die's record in a new version. -/
def State.knotsOn (s : State) (cause die : Nat) (f : KnotDie → KnotDie) : State :=
  s.newKnots cause s.time (s.fab.knots.dies.set die (f (s.knotDie die)))

/-- Arrays of a bent that the map records as retired. -/
def KnotDie.retiredOf (d : KnotDie) (bent : Nat) : Nat :=
  ((upFrom 0 4).filter (fun a => d.arrays.contains (4 * bent + a))).length

/-- Record a retired array; a bent with two or more of them becomes a knot (R137). -/
def KnotDie.retireArr (d : KnotDie) (bent a : Nat) : KnotDie :=
  let d1 := { d with arrays := insertAsc (4 * bent + a) d.arrays }
  if 2 ≤ d1.retiredOf bent then { d1 with bents := insertAsc bent d1.bents } else d1

/-- Retired arrays that the map does not record yet, by array key. -/
def State.unmapped (s : State) : List Nat :=
  (s.arrs.filter (fun a => a.2.retired != 0 && !(s.knotDie (a.1 / 512)).arrays.contains (a.1 % 512))).map (fun a => a.1)

/-- Record what a permanent SRAM fault retires (Table 14-13): a bent, whose SRAM is that of its bench, ledger, shims and calibration; an
attention engine; or a gradient unit. A row of an I/O ring is replaced from spares at the next power-up. -/
def KnotDie.retirePage (d : KnotDie) (p : Page) : KnotDie :=
  match p.blk with
  | .bent | .arr | .shim | .ledg | .cal => { d with bents := insertAsc p.unit d.bents }
  | .att => { d with att := insertAsc p.unit d.att }
  | .grad => { d with grad := insertAsc p.unit d.grad }
  | .dev | .pres | .mc | .fab | .plan | .que | .sync | .req | .kvp | .wgt | .mem | .scrb | .port | .opt | .pwr | .thm | .sec | .log
  | .snap => d

/-- Bents that use the SRAM behind a page; none for an I/O ring. -/
def pageBents (p : Page) : List Nat :=
  match p.blk with
  | .bent | .arr | .shim | .ledg | .cal => [bentKey p.die p.unit]
  | .att | .grad => (upFrom (unitBent p.unit) 8).map (fun b => bentKey p.die b)
  | .dev | .pres | .mc | .fab | .plan | .que | .sync | .req | .kvp | .wgt | .mem | .scrb | .port | .opt | .pwr | .thm | .sec | .log
  | .snap => []

/-- Permanent SRAM faults on the bents of a context, and those on bents of no context. -/
def State.wornFor (s : State) (c : Nat) : List Page :=
  s.sramWorn.filter (fun p => (pageBents p).any (fun k => look none s.owners k == some c) ||
    (!(pageBents p).isEmpty && (pageBents p).all (fun k => (look none s.owners k).isNone)))

/-- Install a new version of the map that records retired arrays and what permanent SRAM faults retire; none where there is nothing to
record. -/
def State.installRetired (s : State) (ks : List Nat) (ps : List Page) : State :=
  let blank : KnotDie := ⟨[], [], [], [], [], [], 0⟩
  if ks.isEmpty && ps.isEmpty then s
  else
    let l1 := ks.foldl (fun l k => l.set (k / 512) ((nth blank l (k / 512)).retireArr (k / 4 % 128) (k % 4))) s.fab.knots.dies
    let l2 := ps.foldl (fun l p => l.set p.die ((nth blank l p.die).retirePage p)) l1
    let s1 := ps.foldl (fun (s : State) (p : Page) => s.logEvent p 0 none none 0 0 0) s
    { s1 with sramWorn := s1.sramWorn.filter (fun p => !ps.contains p) }.newKnots 1 s.time l2

/-- A gate of a context installs the version that records the arrays retired on its bents (R136), with the SRAM faults there. -/
def State.installFor (s : State) (c : Nat) : State :=
  s.installRetired (s.unmapped.filter (fun k => s.owner (k / 512) (k / 4 % 128) == some c)) (s.wornFor c)
/-- A bent that changes its owner takes none of the old context's retirements with it: they are recorded at once. -/
def State.installBent (s : State) (die bent : Nat) : State :=
  s.installRetired (s.unmapped.filter (fun k => k / 4 == bentKey die bent)) (s.sramWorn.filter (fun p => (pageBents p).contains (bentKey die bent)))

/-- The device retires an array with a cause of Table 04-5 (R135, R136): a retired one stays as it is. The new version of the map is
installed at the next gate of the context that uses the bent, and at once where none does (log entry 43). -/
def State.retireArr (s : State) (die bent a cause : Nat) : State :=
  if (s.arr die bent a).retired ≠ 0 then s
  else
    let s1 := s.setArr die bent a { s.arr die bent a with retired := cause }
    let s2 := (s1.raise (arrPage .arr die bent a) 1).logEvent (arrPage .arr die bent a) 0 none none 0 1 0
    if (s.owner die bent).isNone then s2.installBent die bent else s2

/-- Is the array present: its die present and its numbers in range? -/
def State.arrPresent (s : State) (die bent a : Nat) : Bool := s.dieOk die && bent < 128 && a < 4

/-- A write of ARR_CTRL.retire (Table 04-11). -/
def execArrRetire (die bent arr : Nat) (s : State) : Host.Outcome State Fault Refusal :=
  ok (s.hostPage (arrPage .arr die bent arr) (fun s => s.retireArr die bent arr 4))

end Sys2Proof.Machine
end

