-- ==== Sys2Proof/Machine/Shim.lean ====
section
/-!
DEFINITION. Passes of the analogue arrays and their shim units (R106 to R137, R140 to R170): quantising, driving, the check
verdict, the settling of events with their reserve beats, and the partials.
-/

namespace Sys2Proof.Machine

/-! ### Fields of an array word (Table 11-4) -/

def Pass.transposed (p : Pass) : Bool := bits p.word 63 62 == 1
def Pass.wide (p : Pass) : Bool := bitAt p.word 61
def wordFmt (w : Nat) : InFmt := if bitAt w 61 then .int8 else if bitAt w 60 then .e2m1 else .int4
def Pass.fmt (p : Pass) : InFmt := wordFmt p.word
def Pass.wE2m1 (p : Pass) : Bool := bitAt p.word 59 && !p.wide
/-- Range code of nibble pass `i` (hh, hl, lh, ll). -/
def Pass.k (p : Pass) (i : Nat) : Nat :=
  if i = 0 then bits p.word 55 52 else if i = 3 then bits p.word 19 16 else bits p.word 23 20
def Pass.layer (p : Pass) : Nat := bits p.word 33 24
/-- Nibble passes: four in a wide pass. -/
def Pass.nibbles (p : Pass) : List Nat := if p.wide then [0, 1, 2, 3] else [0]
/-- The array that runs nibble pass `i`: the high array is the word's own, the low array that of sub XOR 1. -/
def nibbleArr (a i : Nat) : Nat := if i % 2 = 1 then a ^^^ 1 else a
/-- The arrays of a pass. -/
def Pass.arrs (p : Pass) (a : Nat) : List Nat := if p.wide then [a, a ^^^ 1] else [a]
/-- Beats of a pass on each of its arrays. -/
def Pass.beats (p : Pass) : Nat := if p.wide then 2 else 1
def Pass.isSub (p : Pass) : Bool := match p.role with | .sub _ _ => true | .normal | .second => false
def Pass.isSecond (p : Pass) : Bool := match p.role with | .second => true | .normal | .sub _ _ => false

/-! ### Cells, sums and codes -/

def Arr.plane (a : Arr) (n : Nat) : Plane := if n = 0 then a.plane0 else a.plane1
def Arr.setPlane (a : Arr) (n : Nat) (x : Plane) : Arr := if n = 0 then { a with plane0 := x } else { a with plane1 := x }
def Arr.livePlane (a : Arr) : Plane := a.plane a.live
def Arr.stagedPlane (a : Arr) : Plane := a.plane (1 - a.live)
def Arr.coefs (a : Arr) (bank : Nat) : Sparse W32 := if bank = 0 then a.coef0 else a.coef1
def Arr.setCoefs (a : Arr) (bank : Nat) (m : Sparse W32) : Arr :=
  if bank = 0 then { a with coef0 := m } else { a with coef1 := m }
/-- A coefficient entry as it is before any calibration: gain 1, offset 0 (DESIGN CHOICE: log entry 12). -/
abbrev unitCoef : W32 := 0x80000000
def coefOf (m : Sparse W32) (entry : Nat) : W32 := look unitCoef m entry
/-- Index of an entry: side (0 column, 1 row) and line (512 + g for group check node g). -/
def coefKey (row : Bool) (line : Nat) : Nat := (if row then 544 else 0) + line

/-- The input that nibble pass `i` drives. -/
def Pass.drive (p : Pass) (i : Nat) : List Int :=
  if p.wide then p.q.map (fun x => if i < 2 then highSlice x else lowSlice x) else p.q

def Pass.planeNo (p : Pass) (i : Nat) : Nat := if i % 2 = 1 then p.plane2 else p.plane
def Pass.bankNo (p : Pass) (i : Nat) : Nat := if i % 2 = 1 then p.bank2 else p.bank

/-- Are the published figures of an array within the limits of R84? -/
def Arr.inLimits (x : Arr) : Bool := x.cal.resid.all (fun e => e.2 ≤ 350) && x.cal.noise.all (fun e => e.2 ≤ 25)

/-- The charges that nibble pass `i` leaves on the lines of array `x`: free draw `n`. -/
def Pass.heldOf (p : Pass) (n i : Nat) (x : Arr) : List Int :=
  heldSums (planeSums (x.plane (p.planeNo i)) p.transposed (p.drive i)) n i

/-- Codes of nibble pass `i` on array `x` (R114). -/
def Pass.codesOf (p : Pass) (n i : Nat) (x : Arr) : List Int :=
  ((p.heldOf n i x).take 512).zipIdx.map (fun y =>
    adcCode x.inLimits false n (1024 * i + y.2) (p.k i) (coefOf (x.coefs (p.bankNo i)) (coefKey p.transposed y.2)) y.1)
/-- Codes of the group check nodes (R129), each with what a fault of its own adds. -/
def Pass.nodesOf (p : Pass) (n i : Nat) (x : Arr) : List Int :=
  (upFrom 0 32).map (fun g => adcCode x.inLimits true n (1024 * i + 576 + g) (p.k i)
    (coefOf (x.coefs (p.bankNo i)) (coefKey p.transposed (512 + g)))
    (nodeSum (p.heldOf n i x) g + Config.disturb n (1024 * i + 576 + g)))

/-- Split floor of Table 04-2 for the last nibble pass an array runs (R115). -/
def Pass.floor (p : Pass) (low : Bool) : Nat :=
  if p.wide then (if low then 6 else 5) else if p.fmt = .e2m1 && p.wE2m1 then 6 else 5

end Sys2Proof.Machine

namespace Sys2Proof.Machine

abbrev aPage (die bent a : Nat) : Page := arrPage .arr die bent a
abbrev shPage (die bent a : Nat) : Page := arrPage .shim die bent a

def State.onArr (s : State) (die bent a : Nat) (f : Arr → Arr) : State := s.setArr die bent a (f (s.arr die bent a))

/-- Count on the ARR page of every array of a pass. -/
def State.bumpArrs (s : State) (die bent off : Nat) : List Nat → State
  | [] => s
  | a :: as => (s.bump (aPage die bent a) off).bumpArrs die bent off as

def Arr.setPass (x : Arr) (p : Pass) : Arr :=
  { x with passes := x.passes.map (fun r => if r.id = p.id then p else r) }
def Arr.dropPass (x : Arr) (id : Nat) : Arr := { x with passes := x.passes.filter (fun r => r.id != id) }
/-- The oldest pass in a stage. -/
def Arr.oldest (x : Arr) (st : Stage) : Option Pass := x.passes.find? (fun p => p.stage == st)

/-! ### Receive and quantise (R141 to R148) -/

/-- Column scales in cell units applied to a transposed pass's segment (R145). A product beyond FP32's range saturates to ±max and
raises no mark and no count, since R88 states none: DESIGN CHOICE, log entry 73. -/
def preScale (pl : Plane) (e2m1 : Bool) (xs : List Nat) : List Nat :=
  xs.zipIdx.map (fun x =>
    let sc := scale16 (look 0 pl.scales x.2) e2m1
    (fMul x.1 (fp32.round false sc.1 sc.2 false).1).bits)

/-- A pass that has been quantised and waits for its beat. -/
def newPass (id word slot ctx : Nat) (g : Seg) (flags : Nat) : Pass where
  id := id
  word := word
  slot := slot
  ord := 0
  ord2 := 0
  ctx := ctx
  role := .normal
  isRepeat := false
  entry := none
  stage := .quantised
  zero := g.q.all (fun v => v == 0)
  plane := 0
  bank := 0
  plane2 := 0
  bank2 := 0
  sm := g.sm
  se := g.se
  q := g.q
  outl := g.outl
  second := g.second
  j := g.j
  flags := flags
  epoch := 0
  codes := []
  nodes := []
  missed := []
  mask := []
  wr := .nothing
  closes := 0
  score := none
  window := 0
  window2 := 0

/-- The shim unit quantises the segment `raw` of FP32 elements, which came with flags `fl`, for the pass that array word `w` drives
in step slot `slot`. It works in the beat before, so the scales of a transposed pass are those of the plane that is live then:
DEDUCED, log entry 74. -/
def State.quantise (s : State) (die bent a slot c w : Nat) (raw : List Nat) (fl : Nat) : State :=
  let A := s.arr die bent a
  if A.passes.any (fun p => p.stage == .quantised && p.slot == (slot : Int)) then s
  else
    let nonfin := (raw.filter (fun v => !isFin32 v)).length
    let clean := raw.map (fun v => if isFin32 v then v else 0)
    let vals := if bits w 63 62 = 1 then preScale A.livePlane (bitAt w 59 && !bitAt w 61) clean else clean
    let g := quantSeg (wordFmt w) (bits w 57 56) (bits w 15 0) vals
    let bound := g.bad || nonfin != 0 || g.sat != 0 || bits w 57 56 == 3
    let p := newPass A.nextPass w slot c g (fl ||| (if bound then Flag.bound else 0))
    let pg := shPage die bent a
    let s1 := s.setArr die bent a { A with passes := A.passes ++ [p], nextPass := A.nextPass + 1 }
    let s2 := if g.bad then s1.bump pg Reg.SHIM_BAD_SCALE_COUNT else s1
    let s3 := if nonfin = 0 then s2 else (s2.bumpN pg Reg.SHIM_NONFINITE_COUNT nonfin).raise pg 4
    let s4 := if g.sat = 0 then s3 else s3.bumpN pg Reg.SHIM_SATURATE_COUNT g.sat
    if Flag.isPoison fl then s4.consumePoison pg c 0 else s4

/-! ### Drive (R109 to R113, R125, R131) -/

/-- Marks that the state of the array puts on a pass in its beat: the flags of its plane (R72, R80, R97) and retired (R136) on every
pass; stale figures (R289) and figures over a limit (R290) on a pass that the array drives, so not on a zero segment (R131,
R185). -/
def Arr.driveMarks (x : Arr) (zero : Bool) : Nat :=
  x.livePlane.flags ||| (if x.retired != 0 || (x.cal.isOver && !zero) then Flag.bound else 0) |||
    (if x.cal.stale && !zero then Flag.stale else 0)

/-- Does every pass that the array drives count against a gate (R136, R290)? -/
def Arr.strikes (x : Arr) : Bool := x.retired != 0 || x.cal.isOver

/-- ARR_RANGE and the counts of an array that drives `n` beats. -/
def State.countBeats (s : State) (die bent a n : Nat) (p : Pass) (low : Bool) : State :=
  let pg := aPage die bent a
  let k := if p.wide then p.k (if low then 3 else 2) else p.k 0
  let s1 := (s.add64 pg Reg.ARR_PASS_COUNT n).wr pg Reg.ARR_RANGE
    (packW [(8, b2n p.transposed), (4, p.floor low), (0, k)])
  s1.onArr die bent a (fun x => { x with cal := { x.cal with rateN := x.cal.rateN + n } })

/-- w of ARR_CFG.miss_window_log2 (Table 04-10): a write takes effect at the array's next pass. -/
def State.missWindow (s : State) (die bent a : Nat) : Nat := 2 ^ max 16 (min 30 (s.fld (aPage die bent a) Reg.ARR_CFG 4 0))

/-- The pass as driven now: planes, banks, order, epoch, marks and codes. -/
def State.drivenPass (s : State) (die bent a : Nat) (p : Pass) : Pass :=
  let A := s.arr die bent a
  let B := s.arr die bent (a ^^^ 1)
  let p1 := { p with
    plane := A.live
    bank := A.activeCoef
    plane2 := B.live
    bank2 := B.activeCoef
    ord := s.rd64 (aPage die bent a) Reg.ARR_PASS_COUNT
    ord2 := s.rd64 (aPage die bent (a ^^^ 1)) Reg.ARR_PASS_COUNT
    stage := .driven
    window := s.missWindow die bent a
    window2 := s.missWindow die bent (a ^^^ 1)
    epoch := if p.entry.isNone then ((s.bent die bent).row p.rowK).epoch else p.epoch
    flags := p.flags ||| A.driveMarks p.zero ||| (if p.wide then B.driveMarks p.zero else 0) }
  if p.zero then p1
  else { p1 with
    codes := p.nibbles.map (fun i => p1.codesOf s.free i (s.arr die bent (nibbleArr a i)))
    nodes := p.nibbles.map (fun i => p1.nodesOf s.free i (s.arr die bent (nibbleArr a i))) }

/-- Drive a pass in its beat. A zero segment is not driven (R131). -/
def State.drivePass (s : State) (die bent a : Nat) (p : Pass) : State :=
  let A := s.arr die bent a
  let p1 := s.drivenPass die bent a p
  let s1 := s.onArr die bent a (fun x => x.setPass p1)
  if p.zero then s1.bumpArrs die bent Reg.ARR_ZERO_SKIP_COUNT (p.arrs a)
  else
    let s2 := s1.spend.countBeats die bent a p.beats p1 false
    let s3 := if p.wide then s2.countBeats die bent (a ^^^ 1) p.beats p1 true else s2
    let s4 := if p.outl.isEmpty then s3 else
      (s3.bump (shPage die bent a) Reg.SHIM_OUTLIER_SEG_COUNT).bumpN (shPage die bent a) Reg.SHIM_OUTLIER_COUNT
        p.outl.length
    if A.strikes || (p.wide && (s.arr die bent (a ^^^ 1)).strikes) then s4.strike p.ctx s.time else s4

/-- A pass that makes the scores of a query row starts them anew (R215). -/
def Arr.startScores (x : Arr) (score : Option Nat) : Arr :=
  match score with
  | none => x
  | some r => { x with scores := put ⟨[], 0⟩ x.scores r ⟨List.replicate 512 0, 0⟩ }

/-- Drive the quantised pass of a step slot, when the array word there is of kind `kind`; `score` names the query row whose
scores it makes. The epoch that the pass records is that at the end of its first slot, so the bent's ledger words up to that slot
come first (R177). -/
def State.driveWord (s : State) (die bent a slot kind : Nat) (score : Option Nat) : State :=
  match s.bentWord 1 die bent a slot with
  | none => s
  | some (l, w) =>
    if bits w 63 62 ≠ kind || !s.ledgPast l die bent (slot + 1) then s
    else match (s.arr die bent a).passes.find? (fun p => p.stage == .quantised && p.slot == (slot : Int) && p.ctx == l.c) with
      | none => s
      | some p => (s.onArr die bent a (fun x => x.startScores score)).drivePass die bent a
        { p with slot := (slot + 16 * (p.beats - 1) : Nat), score := score }

def execForwardPass (die bent arr slot : Nat) (score : Option Nat) (s : State) : Host.Outcome State Fault Refusal :=
  ok (s.whenUp (fun s => s.driveWord die bent arr slot 0 score))

def execTransposedPass (die bent arr slot : Nat) (s : State) : Host.Outcome State Fault Refusal :=
  ok (s.whenUp (fun s => s.driveWord die bent arr slot 1 none))

/-- A claimed reserve beat drives the claim's pass; an unclaimed one leaves the array idle (R159). -/
def State.reserveBeat (s : State) (die bent a slot : Nat) : State :=
  let A := s.arr die bent a
  match A.claims.find? (fun c => c.slot == slot) with
  | none => s
  | some c =>
    let A1 := { A with claims := A.claims.filter (fun d => d.slot != slot) }
    match c.pass with
    | none => s.setArr die bent a A1
    | some p =>
      let p1 := { p with id := A.nextPass }
      (s.setArr die bent a { A1 with passes := A1.passes ++ [p1], nextPass := A.nextPass + 1 }).drivePass die bent a p1

def execReserveBeat (die bent arr slot : Nat) (s : State) : Host.Outcome State Fault Refusal :=
  ok (s.whenUp (fun s => match s.bentWord 1 die bent arr slot with
    | some (_, w) => if bits w 63 62 = 2 then s.reserveBeat die bent arr slot else s
    | none => s))

/-! ### The check verdict (R129, R130, R134) -/

/-- Corrected node of group `g` in nibble pass `i`, in 1/16 product unit (R129). -/
def State.node16 (s : State) (die bent a : Nat) (p : Pass) (i g : Nat) : Int :=
  let A := s.arr die bent (nibbleArr a i)
  corr16 (nth 0 (nth [] p.nodes i) g) (p.k i) (coefOf (A.coefs (p.bankNo i)) (coefKey p.transposed (512 + g)))

/-- Groups that miss in nibble pass `i`: a corrected node beyond 3 codes (R130). -/
def State.missedOf (s : State) (die bent a : Nat) (p : Pass) (i : Nat) : List Nat :=
  (upFrom 0 32).filter (fun g => 48 * 2 ^ p.k i < (s.node16 die bent a p i g).natAbs)

/-- The mismatch of ARR_LAST_MISS: the corrected node in codes, or the clip code (Table 04-15). -/
def State.mismatch (s : State) (die bent a : Nat) (p : Pass) (i g : Nat) : Nat :=
  let code := nth 0 (nth [] p.nodes i) g
  signedBits 10 (if code.natAbs = 511 then code
    else clampI (-511) 511 (rneI (s.node16 die bent a p i g) (16 * 2 ^ p.k i)))

/-- Which of its array's passes nibble pass `i` is. -/
def Pass.passOf (p : Pass) (i : Nat) : Int := (((if i % 2 = 1 then p.ord2 else p.ord) + i / 2 : Nat) : Int)

/-- A nibble pass missed in some groups: counted, recorded, and the array retired for a second miss in one group within the
miss window (R134). The passes of the window are those that ARR_PASS_COUNT counts, so a zero-skipped pass does not age a miss:
DESIGN CHOICE, log entry 75. -/
def State.noteMiss (s : State) (die bent a : Nat) (p : Pass) (i : Nat) (groups : List Nat) : State :=
  match groups with
  | [] => s
  | g :: _ =>
    let b := nibbleArr a i
    let pg := aPage die bent b
    let A := s.arr die bent b
    let n : Int := p.passOf i
    let old := A.misses.filter (fun m => n < m.2.2 + ((if i % 2 = 1 then p.window2 else p.window : Nat) : Int))
    let perm := groups.any (fun g => old.any (fun m => m.1 == p.transposed && m.2.1 == g))
    let s1 := s.setArr die bent b { A with
      misses := old ++ groups.map (fun g => (p.transposed, g, n))
      cal := { A.cal with rateMiss := A.cal.rateMiss + 1 } }
    let s2 := ((s1.bump pg Reg.ARR_MISS_COUNT).wr pg Reg.ARR_LAST_MISS
      (packW [(31, 1), (30, b2n p.transposed), (16, g), (0, s.mismatch die bent a p i g)])).raise pg 2
    if perm then s2.retireArr die bent b 3 else s2

def State.noteMisses (s : State) (die bent a : Nat) (p : Pass) : List Nat → State
  | [] => s
  | i :: is => (s.noteMiss die bent a p i (s.missedOf die bent a p i)).noteMisses die bent a p is

/-- Has the plan of a pass come past slot `off` of the pass's beat? While it waits at a gate no stage after the conversions
advances (R522), and none while a snapshot holds the bent back (R315). -/
def State.stageOpen (s : State) (die bent : Nat) (p : Pass) (off : Nat) : Bool :=
  match s.live p.ctx with
  | some l => decide (p.slot + off < ((l.r.gate.getD l.nextGate : Nat) : Int)) &&
      !s.cutHolds (cutPages die bent) (l.fabSlotAt (p.slot + off))
  | none => true

/-- The oldest pass of an array in a stage, when the plan has come past slot `off` of its beat. -/
def State.dueIn (s : State) (die bent a : Nat) (st : Stage) (off : Nat) : Option Pass :=
  ((s.arr die bent a).oldest st).filter (fun p => s.stageOpen die bent p off)

/-- Take the verdict of the oldest driven pass, at slot 24 after its first. A repeat without a miss ends a transient fault; of a wide
pass it counts on both arrays, whichever missed (DESIGN CHOICE, log entry 75). -/
def State.verdict (s : State) (die bent a : Nat) : State :=
  match s.dueIn die bent a .driven 24 with
  | none => s
  | some p =>
    if p.zero then s.onArr die bent a (fun x => x.setPass { p with stage := .checked })
    else
      let missed := (p.nibbles.flatMap (fun i => s.missedOf die bent a p i)).foldl (fun acc g => insertAsc g acc) []
      let s1 := (s.noteMisses die bent a p p.nibbles).onArr die bent a
        (fun x => x.setPass { p with stage := .checked, missed := missed })
      if p.isRepeat && missed.isEmpty then s1.bumpArrs die bent Reg.ARR_TRANSIENT_COUNT (p.arrs a) else s1

def execCheckVerdict (die bent arr : Nat) (s : State) : Host.Outcome State Fault Refusal :=
  ok (s.whenUp (fun s => s.verdict die bent arr))

/-! ### Claims on the reserve (R133, R159 to R162) -/

/-- Unclaimed reserve beats that a pass may claim: at or after its beat + 2, before the next swap slot, on every array of the
pass. -/
def State.freeBeats (s : State) (die bent a : Nat) (p : Pass) : List Nat :=
  match s.live p.ctx with
  | none => []
  | some l =>
    (l.reserve die bent a).filter (fun r =>
      decide (p.slot + 32 ≤ (r : Int)) && (p.arrs a).all (fun b =>
        decide (r < l.nextSwap die bent b p.slot) && (l.reserve die bent b).contains r &&
          !(s.arr die bent b).claims.any (fun c => c.slot == r)))

/-- The withdrawal bits of the ARR and SHIM pages of every array of a pass. -/
def State.raiseWithdrawn (s : State) (die bent : Nat) : List Nat → State
  | [] => s
  | a :: as => ((s.raise (aPage die bent a) 4).raise (shPage die bent a) 2).raiseWithdrawn die bent as

/-- A claim that cannot be granted in full (R133, R162, R165); that of a wide pass is withdrawn on both arrays (R161). -/
def State.withdraw (s : State) (die bent a t : Nat) (p : Pass) : State :=
  ((s.bumpArrs die bent Reg.ARR_WITHDRAWN_COUNT (p.arrs a)).raiseWithdrawn die bent (p.arrs a)).strike p.ctx t

/-- Beats of a claim for `n` passes: each takes two in a wide pass (R161). -/
def Pass.claimBeats (p : Pass) (n : Nat) : Nat := n * p.beats

/-- Can a claim for `n` passes be granted? -/
def State.canClaim (s : State) (die bent a : Nat) (p : Pass) (n : Nat) : Bool :=
  (p.entry.isSome || decide ((s.arr die bent a).store.length < 256)) &&
    decide (p.claimBeats n ≤ (s.freeBeats die bent a p).length)

/-- Is the claim withdrawn because the event store is full? -/
def State.storeFull (s : State) (die bent a : Nat) (p : Pass) : Bool :=
  p.entry.isNone && decide (256 ≤ (s.arr die bent a).store.length)

/-- Lay the passes of a claim on its beats: the first beat of each drives it, and its stages count from its last. -/
def layClaims (w : Nat) (beats : List Nat) : List Pass → List Claim
  | [] => []
  | q :: qs => match beats with
    | [] => []
    | r :: rs => ⟨r, some { q with slot := (((rs.take (w - 1)).getLast?.getD r : Nat) : Int) }⟩ :: ((rs.take (w - 1)).map (fun x => ⟨x, none⟩) ++ layClaims w (rs.drop (w - 1)) qs)

/-- Grant a claim: the beats go to `ps`, the entry counts it, and the row has a correction more outstanding (R182). The
partner of a wide pass gives the same beats; its entry stands in the store of the word's own array alone, which counts its demands
too (DESIGN CHOICE: log entry 76). -/
def State.grant (s : State) (die bent a : Nat) (p : Pass) (key : Nat) (ps : List Pass) : State :=
  let A := s.arr die bent a
  let beats := (s.freeBeats die bent a p).take (p.claimBeats ps.length)
  let ent : StoreEnt := (A.store.find? (fun e => e.id == key)).getD ⟨key, 0, []⟩
  let s1 := s.setArr die bent a { A with
    claims := A.claims ++ layClaims p.beats beats ps
    store := A.store.filter (fun e => e.id != key) ++ [{ ent with claims := ent.claims + 1 }]
    nextEntry := if p.entry.isNone then A.nextEntry + 1 else A.nextEntry }
  let s2 := if p.wide then s1.onArr die bent (a ^^^ 1) (fun x => { x with
    claims := x.claims ++ beats.map (fun r => ⟨r, none⟩) }) else s1
  if p.score.isSome then s2 else s2.outstanding die bent p.rowK p.epoch (fun n => n + 1)

/-- The event-store entry that a pass has, or takes at its first granted claim. -/
def State.entryKey (s : State) (die bent a : Nat) (p : Pass) : Nat := p.entry.getD (s.arr die bent a).nextEntry

/-- Change the split `key` of an entry. -/
def Arr.onSplit (x : Arr) (ent key : Nat) (f : Split → Split) : Arr :=
  { x with store := x.store.map (fun e => if e.id = ent then
      { e with splits := e.splits.map (fun k => if k.key = key then f k else k) } else e) }

/-! ### Settling (R132, Table 04-4, R160) -/

/-- The repeat of a missed pass. -/
def Pass.repeat (p : Pass) (key : Nat) : Pass :=
  { p with isRepeat := true, entry := some key, stage := .quantised, closes := if p.isSub then 0 else p.closes + 1 }

/-- Sub-pass `i` of a split: one quarter of the driven lines (R116). -/
def Pass.quarter (p : Pass) (key split i : Nat) : Pass :=
  let q := p.q.zipIdx.map (fun x => if x.2 / 128 = i then x.1 else 0)
  { p with
    role := .sub i split
    isRepeat := false
    entry := some key
    stage := .quantised
    q := q
    zero := q.all (fun v => v == 0)
    outl := []
    second := []
    flags := 0
    closes := 0 }

/-- The second pass (R75, R148). -/
def Pass.secondPass (p : Pass) (key : Nat) : Pass :=
  { p with
    role := .second
    isRepeat := false
    entry := some key
    stage := .quantised
    q := p.second
    zero := p.second.all (fun v => v == 0)
    outl := []
    second := []
    closes := 1 }

/-- Is line `l` clipped in the pass (R114)? -/
def Pass.clips (p : Pass) (l : Nat) : Bool := p.codes.any (fun c => (nth 0 c l).natAbs == 511)
def Pass.clipMask (p : Pass) : List Bool := (upFrom 0 512).map (fun l => p.clips l)

/-- The windows of R168: the one a pass of order `ord` belongs to gains a demand; the flag says that it reached the
threshold. -/
def EscWin.demand (e : EscWin) (thr : Nat) : EscWin × Bool :=
  let n := e.count + 1
  let hit := thr != 0 && !e.raised && thr ≤ n
  ({ e with count := n, raised := e.raised || hit }, hit)

/-- An escalation is raised (R168): counted, shown, and carried to the plan engine, which records it (R169). -/
def State.raiseEsc (s : State) (die bent a : Nat) (p : Pass) : State :=
  let pg := shPage die bent a
  (((s.onArr die bent a (fun x => { x with escPending := true })).bump pg Reg.SHIM_ESC_COUNT).wr pg Reg.SHIM_ESC_LAST
    (packW [(31, 1), (20, p.ctx), (0, p.layer)])).raise pg 1 |>.onCtx p.ctx
      (fun x => { x with escPend := x.escPend ++ [(p.layer, 2, s.time)] })

/-- A second pass is demanded (R168). -/
def State.demand (s : State) (die bent a : Nat) (p : Pass) : State :=
  let thr := s.fld (shPage die bent a) Reg.SHIM_ESC_CFG 15 0
  let A := s.arr die bent a
  let s1 := s.bump (shPage die bent a) Reg.SHIM_SECOND_DEMAND_COUNT
  let cal := { A.cal with rateSecond := A.cal.rateSecond + 1 }
  if A.escCur.start ≤ p.ord then
    let r := A.escCur.demand thr
    let s2 := s1.setArr die bent a { A with escCur := r.1, cal := cal }
    if r.2 then s2.raiseEsc die bent a p else s2
  else
    let r := A.escPrev.demand thr
    let s2 := s1.setArr die bent a { A with escPrev := r.1, cal := cal }
    if r.2 then s2.raiseEsc die bent a p else s2

/-- The pass is settled: what it writes, and the marks it got. -/
def State.settleAs (s : State) (die bent a : Nat) (p : Pass) (wr : Wr) (flags : Nat) : State :=
  s.onArr die bent a (fun x => x.setPass { p with stage := .settled, wr := wr, flags := p.flags ||| flags })

def State.countFull (s : State) (die bent a : Nat) (p : Pass) : State :=
  if s.storeFull die bent a p then s.bump (shPage die bent a) Reg.SHIM_STORE_FULL_COUNT else s

/-- Step 1 of R132: a missed pass claims its repeat. -/
def State.settleMissed (s : State) (die bent a t : Nat) (p : Pass) : State :=
  if p.isRepeat then s.settleAs die bent a p .full Flag.bound
  else if s.canClaim die bent a p 1 then
    let key := s.entryKey die bent a p
    let s1 := s.grant die bent a p key [p.repeat key]
    let s2 := match p.role, p.entry with
      | .sub _ k, some e => s1.onArr die bent a (fun x => x.onSplit e k (fun sp => { sp with closes := sp.closes + 1 }))
      | _, _ => s1
    s2.settleAs die bent a { p with entry := some key } .nothing 0
  else ((s.countFull die bent a p).withdraw die bent a t p).settleAs die bent a p .full Flag.bound

/-- A sub-pass settles: its own clipping, on any line, is kept and marked (R117). -/
def State.settleSub (s : State) (die bent a : Nat) (p : Pass) : State :=
  if p.clipMask.contains true then
    (s.bumpArrs die bent Reg.ARR_SPLIT_CLIP_COUNT (p.arrs a)).settleAs die bent a p .full Flag.bound
  else s.settleAs die bent a p .full 0

/-- Step 3 of R132: a pass with outliers left claims its second pass. -/
def State.settleSecond (s : State) (die bent a t : Nat) (p : Pass) (wr : Wr) (flags : Nat) : State :=
  if p.second.isEmpty then s.settleAs die bent a p wr flags
  else
    let s1 := s.demand die bent a p
    if s1.canClaim die bent a p 1 then
      let key := s1.entryKey die bent a p
      ((s1.grant die bent a p key [p.secondPass key]).bump (shPage die bent a) Reg.SHIM_SECOND_DRAWN_COUNT).settleAs die bent
        a { p with entry := some key } wr flags
    else ((s1.countFull die bent a p).withdraw die bent a t p).settleAs die bent a p wr (flags ||| Flag.bound)

/-- Steps 2 and 3 of R132 for a pass whose result is accepted. -/
def State.settleAccepted (s : State) (die bent a t : Nat) (p : Pass) : State :=
  let mask := p.clipMask
  if !mask.contains true then s.settleSecond die bent a t p .full 0
  else if s.canClaim die bent a p 4 then
    let key := s.entryKey die bent a p
    let split := p.id
    let p1 := { p with entry := some key, mask := mask }
    let s1 := (s.grant die bent a p key ((upFrom 0 4).map (fun i => p.quarter key split i))).bumpArrs die bent
      Reg.ARR_SPLIT_COUNT (p.arrs a)
    let s2 := s1.onArr die bent a (fun x => { x with
      store := x.store.map (fun e => if e.id = key then
        { e with splits := e.splits ++ [⟨split, p1, 4, List.replicate 512 0, 0, 1⟩] } else e) })
    s2.settleSecond die bent a t p1 .masked 0
  else ((s.countFull die bent a p).withdraw die bent a t p).settleSecond die bent a t p .full Flag.bound

/-- Arrays of a pass in which a column clipped. -/
def Pass.clippedArrs (p : Pass) (a : Nat) : List Nat :=
  (p.arrs a).filter (fun b => p.codes.zipIdx.any (fun c => nibbleArr a c.2 == b && c.1.any (fun v => v.natAbs == 511)))

/-- Settle the oldest checked pass at the end of its beat + 1. -/
def State.settle (s : State) (die bent a t : Nat) : State :=
  match s.dueIn die bent a .checked 31 with
  | none => s
  | some p =>
    if p.zero then s.settleAs die bent a p .full 0
    else
      let s1 := s.bumpArrs die bent Reg.ARR_CLIP_COUNT (p.clippedArrs a)
      if !p.missed.isEmpty then s1.settleMissed die bent a t p
      else if p.isSub then s1.settleSub die bent a p
      else s1.settleAccepted die bent a t p

def execPassEventSettle (die bent arr t : Nat) (s : State) : Host.Outcome State Fault Refusal :=
  ok (s.whenUp (fun s => (s.at t).settle die bent arr t))

/-- w of SHIM_ESC_CFG.window_log2 (Table 05-10). -/
def State.escLog (s : State) (die bent a : Nat) : Nat :=
  max 8 (min 24 (s.fld (shPage die bent a) Reg.SHIM_ESC_CFG 20 16))

/-- The pass count has reached the next multiple of 2^w: a new window starts (R168). After a change of window_log2 the first window
starts where the old one ended and ends at the next multiple of the new 2^w: DESIGN CHOICE, log entry 77. -/
def State.escWindowEnd (s : State) (die bent a : Nat) : State :=
  let A := s.arr die bent a
  let n := s.rd64 (aPage die bent a) Reg.ARR_PASS_COUNT
  if n / 2 ^ A.escCur.w ≤ A.escCur.start / 2 ^ A.escCur.w then s
  else
    let w := s.escLog die bent a
    s.setArr die bent a { A with escPrev := A.escCur, escCur := ⟨n / 2 ^ A.escCur.w * 2 ^ A.escCur.w, w, 0, false⟩ }

def execEscalationWindowEnd (die bent arr : Nat) (s : State) : Host.Outcome State Fault Refusal :=
  ok (s.whenUp (fun s => s.escWindowEnd die bent arr))

end Sys2Proof.Machine
end

