-- ==== Sys2Proof/Machine/Partials.lean ====
section
/-!
DEFINITION. The correct and write stages of a pass (R149 to R158, R163) and the samples of live calibration that they give
(R277 to R280).
-/

namespace Sys2Proof.Machine

/-! ### Assembling a partial (R157) -/

/-- Side of the coefficient bank that a pass uses: the row side for a transposed one. -/
def State.line16 (s : State) (die bent a : Nat) (p : Pass) (i l : Nat) : Int :=
  let A := s.arr die bent (nibbleArr a i)
  corr16 (nth 0 (nth [] p.codes i) l) (p.k i) (coefOf (A.coefs (p.bankNo i)) (coefKey p.transposed l))

/-- The corrected analogue term of a line in 1/16 product unit; the four terms of a wide pass recombined (R82, R150). -/
def State.analogue16 (s : State) (die bent a : Nat) (p : Pass) (l : Nat) : Int :=
  if p.wide then 256 * s.line16 die bent a p 0 l + 16 * (s.line16 die bent a p 1 l + s.line16 die bent a p 2 l) +
    s.line16 die bent a p 3 l
  else s.line16 die bent a p 0 l

/-- Weight at a crossing as the read port gives it: the cell value, or 16·W_h + W_l of a wide pass (R147). -/
def Pass.weightAt (p : Pass) (hi lo : Plane) (row col : Nat) : Int :=
  if p.wide then 16 * hi.at row col + lo.at row col else hi.at row col

/-- The sum of the outlier products of an output line (R147). -/
def Pass.outlierSum (p : Pass) (hi lo : Plane) (l : Nat) : Int :=
  p.outl.foldl (fun acc o => acc + o.2 * (if p.transposed then p.weightAt hi lo l o.1 else p.weightAt hi lo o.1 l)) 0

/-- The represented input element (R156): the cell value, with the residual of a corrected outlier. -/
def Pass.input (p : Pass) (i : Nat) : Int :=
  nth 0 p.q i + ((p.outl.find? (fun o => o.1 == i)).map (fun o => o.2)).getD 0

/-- The sum of the residual-list terms of an output line (R156). -/
def Pass.residSum (p : Pass) (res : List (Nat × Nat × Int)) (l : Nat) : Int :=
  res.foldl (fun acc e =>
    if p.transposed then (if e.1 = l then acc + e.2.2 * p.input e.2.1 else acc)
    else (if e.2.1 = l then acc + e.2.2 * p.input e.1 else acc)) 0

/-- Exponent that a second pass adds to the scale (Table 03-2). -/
def Pass.shift (p : Pass) : Int := if p.isSecond then p.j else 0

/-- A sum in 1/16 product unit times σ_p of a line, rounded once to FP32 (R157). The column scales of a wide pass are those of its
own array's plane, the high one: DESIGN CHOICE, log entry 78. -/
def Pass.scaled (p : Pass) (pl : Plane) (l : Nat) (t : Int) : Nat :=
  let w := if p.transposed then ((1 : Nat), (0 : Int)) else scale16 (look 0 pl.scales l) p.wE2m1
  (fin32 (t < 0) (t.natAbs * p.sm * w.1) (p.se + w.2 + p.shift - 4) false).bits

/-- The values of a pass's partial: T_j·σ_p, with a_j = 0 on the clipped lines when a split is to bring it (Table 05-5). The entries
of both residual lists of a wide pair are added, unweighted: DESIGN CHOICE, log entry 78. -/
def State.partialVals (s : State) (die bent a : Nat) (p : Pass) : List (Option Nat) :=
  let hi := (s.arr die bent a).plane p.plane
  let lo := (s.arr die bent (a ^^^ 1)).plane p.plane2
  let res := if p.wide then hi.resid ++ lo.resid else hi.resid
  (upFrom 0 512).map (fun l =>
    let an := if p.wr = .masked && nth false p.mask l then 0 else s.analogue16 die bent a p l
    some (p.scaled hi l (an + 16 * (p.outlierSum hi lo l + p.residSum res l))))

/-- The values of a split's correction partial: on clipped lines the sum of a_j over the four sub-passes. -/
def State.splitVals (s : State) (die bent a : Nat) (sp : Split) : List (Option Nat) :=
  let hi := (s.arr die bent a).plane sp.pass.plane
  (upFrom 0 512).map (fun l => if nth false sp.pass.mask l then some (sp.pass.scaled hi l (nth 0 sp.acc l)) else none)

/-! ### Writing (R158, R163, R182) -/

/-- `n` claims of an entry are complete; the entry is freed with its last one (R162). -/
def Arr.endClaims (x : Arr) (ent : Option Nat) (n : Nat) : Arr :=
  match ent with
  | none => x
  | some k =>
    let left := x.store.map (fun e => if e.id = k then { e with claims := e.claims - n } else e)
    { x with store := left.filter (fun e => !(e.id == k && e.claims == 0)) }

/-- Add a partial to the scores of a query row (R215). -/
def Arr.addScores (x : Arr) (row flags : Nat) (vals : Option (List (Option Nat))) : Arr :=
  let old := look ⟨[], 0⟩ x.scores row
  let new := (vals.map (fun vs => (List.zipWith colAdd old.vals vs).map (fun r => r.bits))).getD old.vals
  { x with scores := put ⟨[], 0⟩ x.scores row ⟨new, old.flags ||| flags⟩ }

/-- Where a partial goes: to its ledger row, or to the scores of its query row. -/
def State.placePartial (s : State) (die bent a : Nat) (p : Pass) (flags : Nat) (vals : Option (List (Option Nat))) : State :=
  match p.score with
  | some r => s.onArr die bent a (fun x => x.addScores r flags vals)
  | none => s.addPartial die bent ⟨p.rowK, p.index, p.epoch, flags, vals⟩

/-- Claims complete: the ledger row has fewer corrections outstanding, and their event-store entry ends them. -/
def State.closeClaims (s : State) (die bent a : Nat) (p : Pass) (closes : Nat) : State :=
  (if p.score.isSome then s else s.outstanding die bent p.rowK p.epoch (fun n => n - closes)).onArr die bent a
    (fun x => x.endClaims p.entry closes)

/-- Send a partial where it goes, count its mark, and end the claims it completes. -/
def State.sendPartial (s : State) (die bent a : Nat) (p : Pass) (flags closes : Nat)
    (vals : Option (List (Option Nat))) : State :=
  let s1 := s.placePartial die bent a p flags vals
  let s2 := if bitAt flags 1 then s1.bump (shPage die bent a) Reg.SHIM_BOUND_EXCEEDED_COUNT else s1
  if closes = 0 then s2 else s2.closeClaims die bent a p closes

/-- A sub-pass, or its repeat, adds its a_j to its split; the last one sends the correction partial. -/
def State.writeSub (s : State) (die bent a ent key : Nat) (p : Pass) : State :=
  let sums := (upFrom 0 512).map (fun l => if p.zero then 0 else s.analogue16 die bent a p l)
  let s1 := s.onArr die bent a (fun x => x.onSplit ent key (fun sp =>
    { sp with left := sp.left - 1, acc := List.zipWith (fun u v => u + v) sp.acc sums, flags := sp.flags ||| p.flags }))
  match ((s1.arr die bent a).store.find? (fun e => e.id == ent)).bind (fun e => e.splits.find? (fun k => k.key == key)) with
  | none => s1
  | some sp =>
    if sp.left = 0 then
      s1.sendPartial die bent a { sp.pass with entry := some ent } (sp.pass.flags ||| sp.flags) sp.closes
        (some (s1.splitVals die bent a sp))
    else s1

/-- What a settled pass writes at the end of its beat + 2 (Table 05-5). -/
def State.writePass (s : State) (die bent a : Nat) (p : Pass) : State :=
  match p.wr with
  | .nothing => s
  | .full | .masked =>
    match p.role, p.entry with
    | .sub _ key, some ent => s.writeSub die bent a ent key p
    | _, _ =>
      s.sendPartial die bent a p p.flags p.closes (if p.zero then none else some (s.partialVals die bent a p))

/-! ### Samples of live calibration (R267, R268, R277 to R280) -/

abbrev calPage (die bent : Nat) : Page := unitPage .cal die bent

/-- w of CAL_CFG.window_log2 (Table 09-7). -/
def State.calWindow (s : State) (die bent : Nat) : Nat := max 12 (min 20 (s.fld (calPage die bent) Reg.CAL_CFG 20 16))

/-- A window without a sample. -/
def CalWin.empty (w k : Nat) (coef : W32) : CalWin := ⟨0, w, k, coef, 0, 0, 0, 0, 0, 0⟩

/-- Add a sample to a window (R267, R268), taken in pass `beat` of the array: `a16` and `y16` in 1/16 product unit. The first sample
fixes the window's range code and length; a full window takes no more. -/
def addSample (win : Option CalWin) (w k : Nat) (coef : W32) (beat a16 y16 : Int) : Option CalWin :=
  let c := win.getD (CalWin.empty w k coef)
  let e := a16 - y16
  if c.k ≠ k || 2 ^ c.w ≤ c.n then win
  else some { c with
    n := c.n + 1
    sy := c.sy + y16
    syy := c.syy + y16 * y16
    se := c.se + e
    sey := c.sey + e * y16
    see := c.see + e * e
    beat := beat }

/-- Sample one line of nibble pass `i`: only when its code is no clip code and its entry is still the active one (R267, R280). -/
def State.sampleLine (s : State) (die bent a : Nat) (p : Pass) (i l : Nat) (code y : Int) : State :=
  let b := nibbleArr a i
  let A := s.arr die bent b
  let key := coefKey p.transposed l
  let coef := coefOf (A.coefs (p.bankNo i)) key
  if code.natAbs = 511 || coef ≠ coefOf (A.coefs A.activeCoef) key then s
  else
    let win := addSample (look none A.cal.wins key) (s.calWindow die bent) (p.k i) coef (p.passOf i) (corr16 code (p.k i) coef) (16 * y)
    s.setArr die bent b { A with cal := { A.cal with wins := put none A.cal.wins key win } }

/-- The exact sum of one output line of nibble pass `i` (R267). -/
def lineSum (pl : Plane) (transposed : Bool) (q : List Int) (l : Nat) : Int := nth 0 (planeSums pl transposed q) l

/-- Samples in a line's window. -/
def Arr.sampled (x : Arr) (key : Nat) : Nat := ((look none x.cal.wins key).map (fun c => c.n)).getD 0

/-- Does the line's window hold another range code? -/
def Arr.otherCode (x : Arr) (key k : Nat) : Bool :=
  match look none x.cal.wins key with
  | some c => c.k != k
  | none => false

/-- The side's cursor goes on past line `l` (R278). -/
def Arr.passCursor (x : Arr) (row : Bool) (l : Nat) : Arr :=
  { x with cal := if row then { x.cal with cursorR := (l + 1) % 512 } else { x.cal with cursorC := (l + 1) % 512 } }

/-- Sample `n` data lines from line `l` on, looking at `fuel` lines at most; lines whose window holds another range code are
left out. The cursor, while it stands at the line (`at_`), passes over it when it gave a sample or was left out (R278). -/
def State.sampleLines (s : State) (die bent a : Nat) (p : Pass) (i n l : Nat) (at_ : Bool) : Nat → State
  | 0 => s
  | fuel + 1 =>
    let b := nibbleArr a i
    let A := s.arr die bent b
    let key := coefKey p.transposed l
    if n = 0 then s
    else if A.otherCode key (p.k i) then
      (if at_ then s.onArr die bent b (fun x => x.passCursor p.transposed l) else s).sampleLines die bent a p i n
        ((l + 1) % 512) at_ fuel
    else
      let y := lineSum (A.plane (p.planeNo i)) p.transposed (p.drive i) l
      let s1 := s.sampleLine die bent a p i l (nth 0 (nth [] p.codes i) l) y
      if (s1.arr die bent b).sampled key = A.sampled key then
        s1.sampleLines die bent a p i (n - 1) ((l + 1) % 512) false fuel
      else
        let s2 := s1.bump (calPage die bent) Reg.CAL_SAMPLE_COUNT
        (if at_ then s2.onArr die bent b (fun x => x.passCursor p.transposed l) else s2).sampleLines die bent a p i (n - 1)
          ((l + 1) % 512) at_ fuel

/-- The 32 group check nodes give a sample each, with y = 0 (R279). -/
def State.sampleNodes (s : State) (die bent a : Nat) (p : Pass) (i : Nat) : List Nat → State
  | [] => s
  | g :: gs =>
    (s.sampleLine die bent a p i (512 + g) (nth 0 (nth [] p.nodes i) g) 0).sampleNodes die bent a p i gs

/-- Outliers that the read port of array `b` corrects in the beat of step slot `t`: of its own pass, and of its partner's wide one
(R124, R147). `p` has left the list of array `a`. -/
def State.portOutliers (s : State) (die bent a b : Nat) (p : Pass) (t : Int) : Nat :=
  let here := fun (x : Nat) (q : Pass) => (x == b || q.wide) && q.slot - 16 * ((q.beats - 1 : Nat) : Int) == t
  sumL (([b, b ^^^ 1] : List Nat).map (fun x =>
    sumL (((if x = a then [p] else []) ++ (s.arr die bent x).passes).filterMap (fun q => if here x q then some q.outl.length else none))))

/-- Read-port slots of the beat of step slot `t` that are left for sampling: 16, less the outliers and the reads of passes sampled
before. -/
def State.portFree (s : State) (die bent a b : Nat) (p : Pass) (t : Int) : Nat :=
  16 - s.portOutliers die bent a b p t - sumL (((s.arr die bent b).cal.reads.filter (fun r => r.1 == t)).map (fun r => r.2))

/-- Up to `n` lines are read in the free slots of beats; the number read, and the slots taken. -/
def portTake (free : Int → Nat) : Nat → List Int → Nat × List (Int × Nat)
  | _, [] => (0, [])
  | n, t :: ts =>
    let k := min n (free t)
    let r := portTake free (n - k) ts
    (k + r.1, if k = 0 then r.2 else (t, k) :: r.2)

/-- The samples of one nibble pass: the pass is sampled when the LFSR's next value draws 0 of 2^s numbers (R277: probability 2^−s;
log entry 79). Its lines are read in the slots that outlier correction leaves free in beats n to
n + 3, passes in the order of their beats (R278). -/
def State.sampleNibble (s : State) (die bent a : Nat) (p : Pass) (i : Nat) : State :=
  let b := nibbleArr a i
  let cfg := calPage die bent
  let most := min 16 (s.fld cfg Reg.CAL_CFG 12 8)
  let x := lfsrNext (s.arr die bent b).cal.lfsr
  let s0 := s.onArr die bent b (fun y => { y with cal := { y.cal with lfsr := x } })
  if (s.arr die bent b).cal.closed || most = 0 || (s.missedOf die bent a p i) != [] then s0
  else
    let s1 := s0.sampleNodes die bent a p i (upFrom 0 32)
    let m := 2 ^ min 12 (s.fld cfg Reg.CAL_CFG 3 0)
    if Config.lfsrPick x m % m = 0 then
      let t := p.slot - (if p.wide && i < 2 then 16 else 0)
      let got := portTake (s.portFree die bent a b p) most [t, t + 16, t + 32, t + 48]
      let s2 := s1.onArr die bent b (fun y => { y with cal := { y.cal with
        reads := y.cal.reads.filter (fun r => decide (t ≤ r.1)) ++ got.2 } })
      let c := (s2.arr die bent b).cal
      s2.sampleLines die bent a p i got.1 (if p.transposed then c.cursorR else c.cursorC) true 512
    else s1

def State.samplePass (s : State) (die bent a : Nat) (p : Pass) : List Nat → State
  | [] => s
  | i :: is => (s.sampleNibble die bent a p i).samplePass die bent a p is

/-- Is a partial before another in the order of Table 06-3: the slot that it reaches the row in, then the pass index, then the
array number (R178, R179)? -/
def partialBefore (x y : Nat × Pass) : Bool :=
  decide (x.2.due < y.2.due) || (x.2.due == y.2.due && (decide (x.2.index < y.2.index) || (x.2.index == y.2.index && decide (x.1 < y.1))))

/-- May a pass be written: nothing that reaches its row earlier is still to come (R178, R179)? -/
def State.writeTurn (s : State) (die bent a : Nat) (p : Pass) : Bool :=
  p.score.isSome ||
    ((s.rowPending die bent p.ctx p.rowK).all (fun x => !partialBefore x (a, p)) &&
      (match s.live p.ctx with
       | some l => s.ledgPast l die bent p.due
       | none => true))

/-- Write the oldest settled pass at slot 47 after its first, and take the samples of its nibble passes that did not miss (R277,
R279). -/
def State.partialWrite (s : State) (die bent a : Nat) : State :=
  match s.dueIn die bent a .settled 47 with
  | none => s
  | some p =>
    if !s.writeTurn die bent a p then s
    else
      let s1 := (s.onArr die bent a (fun x => x.dropPass p.id)).writePass die bent a p
      if p.zero then s1 else s1.samplePass die bent a p p.nibbles

def execPartialWrite (die bent arr : Nat) (s : State) : Host.Outcome State Fault Refusal :=
  ok (s.whenUp (fun s => s.partialWrite die bent arr))

end Sys2Proof.Machine
end

