-- ==== Sys2Proof/Machine/Loads.lean ====
section
/-!
DEFINITION. Plane loads and swaps (R118 to R124, R151 to R155, R402, R521) and the coefficient banks that go with them.
-/

namespace Sys2Proof.Machine

/-! ### Starting a load (R120, R155) -/

/-- A load's flight completes with a code (R521). -/
def State.endLoad (s : State) (r : LoadReq) (code : Nat) : State :=
  match r.flight with
  | some f => s.finish f.1 f.2 code 0 0
  | none => s

/-- A refused load: it writes no row, and the staged plane keeps its contents (R155). Its code is latched on the ARR and SHIM
pages (R523). -/
def State.refuseLoad (s : State) (die bent a : Nat) (r : LoadReq) (code : Nat) : State :=
  let A := s.arr die bent a
  let n := 1 - A.live
  let detail := if code = Err.residOverflow then min r.resid 0xFFFF else 0
  let s1 := s.setArr die bent a { A.setPlane n { A.plane n with tag := r.tag } with
    staged := 3, loadError := code, rows := 0, poisoned := false, bankState := 3 }
  let s2 := ((s1.latchErr (aPage die bent a) code (some r.ctx) 0 0).raise (aPage die bent a) 3).latchErr (shPage die bent a)
    code (some r.ctx) detail 0
  let s3 := if code = Err.residOverflow then
    (s2.bump (shPage die bent a) Reg.SHIM_RESIDUAL_REFUSED_COUNT).raise (shPage die bent a) 3 else s2
  s3.endLoad r code

/-- The load begins to write the staged plane. -/
def State.beginLoad (s : State) (die bent a : Nat) (r : LoadReq) : State :=
  let A := s.arr die bent a
  let n := 1 - A.live
  s.setArr die bent a { A.setPlane n { A.plane n with tag := r.tag } with
    staged := 1, rows := 0, poisoned := false, bankState := 1, loading := some r }

/-- Code that a load is refused with before its first row (Table 13-7, R155). -/
def LoadReq.code (r : LoadReq) : Nat :=
  if r.refuse ≠ 0 then r.refuse else if 2048 < r.resid then Err.residOverflow else 0

/-- Loads that wait begin once the plane is free: refused ones end at once and let the next begin. -/
def State.beginNext (s : State) (die bent a : Nat) : List LoadReq → State
  | [] => s.onArr die bent a (fun x => { x with waiting := [] })
  | r :: rs =>
    if r.code = 0 then (s.beginLoad die bent a r).onArr die bent a (fun x => { x with waiting := rs })
    else (s.refuseLoad die bent a r r.code).beginNext die bent a rs

/-- A load is requested: it waits while an earlier load runs (R120) or the old live plane drains (R122). -/
def State.startLoad (s : State) (die bent a : Nat) (r : LoadReq) : State :=
  let A := s.arr die bent a
  if A.loading.isSome || A.draining then s.setArr die bent a { A with waiting := A.waiting ++ [r] }
  else s.beginNext die bent a (A.waiting ++ [r])

/-! ### WEIGHT_LOAD (R521) -/

abbrev imageBytes : Nat := 132096

/-- The checks of R521 in order; the second number is PAGE_ERR_INFO.detail, bit 15 for a retired unit (R55). The residual list
follows the plane image. -/
def State.weightLoadCode (s : State) (tenant : Nat) (d : Bytes) : Nat × Nat :=
  let h := dHandle d
  let die := dField d 0x24 1
  let bent := dField d 0x25 1
  let a := dField d 0x26 1
  let n := dField d 0x2C 4
  let addr := dField d 0x30 8
  if s.tripLatched then (Err.notReady, 0)
  else if s.checkHandle tenant .ctx h ≠ 0 then (s.checkHandle tenant .ctx h, 0)
  else if dField d 0x28 4 = 0 || 0xFFFF < dField d 0x28 4 || dField d 0x38 8 < 4 * n || !s.devRange addr imageBytes ||
    !s.devRange (addr + imageBytes) (4 * n) then (Err.length, 0)
  else if !s.arrPresent die bent a then (Err.absentUnit, 0)
  else if s.arrIsKnot die bent a then (Err.absentUnit, 0x8000)
  else if s.owner die bent ≠ some (hIdx h) then (Err.absentUnit, 0)
  else (0, 0)

/-- The load that a WEIGHT_LOAD asks for. -/
def weightReq (f : Flight) : LoadReq :=
  ⟨dField f.desc 0x28 4, dField f.desc 0x30 8, dField f.desc 0x2C 4, none, 0, false, hIdx (dHandle f.desc),
    some (f.q, f.ix), none⟩

def execWeightLoad (q ix : Nat) (s : State) : Host.Outcome State Fault Refusal :=
  ok (s.runFlight q ix 0x0F (fun s f =>
    let c := s.weightLoadCode f.tenant f.desc
    let die := dField f.desc 0x24 1
    if c.1 ≠ 0 then s.failOp f c.1 c.2
    else if !s.awake die then s
    else (s.waitFlight f.q f.ix).startLoad die (dField f.desc 0x25 1) (dField f.desc 0x26 1) (weightReq f)))

/-! ### The weight feed (R402) -/

def State.gen (s : State) (h : Nat) : Option Gen := look none s.gens (hIdx h)

/-- Key of a generation's shard. -/
def Gen.key (g : Gen) (shard : Nat) : Bytes := ((g.keys.find? (fun k => k.1 == shard)).map (fun k => k.2)).getD []

/-- The load of plane `p` of a generation, by its 16-byte plane-table entry (R400, Table 13-7). -/
def feedReq (g : Gen) (c tag p : Nat) (e : Rd) : LoadReq :=
  let w := fieldB e.data 8 4
  let pos := fieldB e.data 12 4
  let addr := fieldB e.data 0 8
  let bad := g.planeCount ≤ p || !(bitAt w 31)
  { tag := tag
    addr := addr + 64
    resid := bits w 27 16
    crypt := some ⟨g.key (bits w 15 0), bits w 15 0, bits pos 31 16, bits pos 15 0 + 4⟩
    refuse := if Flag.isPoison e.flags then 0 else if bad then Err.length else if g.quarantined then Err.genRetired else 0
    poison := Flag.isPoison e.flags
    ctx := c
    flight := none
    kv := none }

/-- A load refused because no generation is in force for the context. -/
def noGenReq (c tag : Nat) : LoadReq := ⟨tag, 0, 0, none, Err.genRetired, false, c, none, none⟩

/-- A feed word resolves its plane index and starts the load (Table 11-5). -/
def State.feedWord (s : State) (l : Live) (die w : Nat) : State :=
  let tag := bits w 63 48
  let a := bits w 47 46
  let bent := bits w 45 39
  let p := bits w 23 0
  match s.gen (if bitAt w 38 then l.r.nextGen else l.r.stepGen) with
  | none => (s.bump (diePage .wgt die) Reg.WGT_LOAD_REFUSED_COUNT).startLoad die bent a (noGenReq l.c tag)
  | some g =>
    let e := if p < g.planeCount then s.unitRead (g.table + 16 * p) 16 else (⟨[], 0⟩, s)
    let r := feedReq g l.c tag p e.1
    (if r.code = 0 then e.2 else e.2.bump (diePage .wgt die) Reg.WGT_LOAD_REFUSED_COUNT).startLoad die bent a r

/-! ### Completion (R119, R120, R153) -/

/-- Is the image an MX tensor, and one of INT8 elements? -/
def fmtMx : PlaneFmt → Bool
  | .mxfp4 | .mxint8hi | .mxint8lo => true
  | .int4 | .e2m1 | .low => false
def fmtWide : PlaneFmt → Bool
  | .mxint8hi | .mxint8lo => true
  | .int4 | .e2m1 | .low | .mxfp4 => false

/-- Bytes of the elements of an image: two to a byte, or one of MXINT8. -/
def fmtElems (f : PlaneFmt) : Nat := if fmtWide f then 262144 else 131072
/-- Bytes of an image with its scales: 512 FP16 column scales (R71), or of an MX tensor the 16 E8M0 exponents of each column, column
after column; the spec gives the MX tensor no layout (DESIGN CHOICE: log entry 24). -/
def imageSize (f : PlaneFmt) : Nat := (fmtElems f) + (if fmtMx f then 8192 else 1024)

/-- Element (r, c) of an image. -/
def imageElem (f : PlaneFmt) (bs : Bytes) (r c : Nat) : Nat :=
  if fmtWide f then fieldB bs (512 * r + c) 1
  else
    let b := fieldB bs (256 * r + c / 2) 1
    if c % 2 = 0 then b % 16 else b / 16

/-- The exponents of a column of an MX tensor, and the largest of them (R79). -/
def imageExps (f : PlaneFmt) (bs : Bytes) (c : Nat) : List Nat :=
  (upFrom 0 16).map (fun i => fieldB bs ((fmtElems f) + 16 * c + i) 1)
def imageTop (f : PlaneFmt) (bs : Bytes) (c : Nat) : Nat := maxL (imageExps f bs c)

/-- The element as it is written: of an MX tensor re-rounded at the column's scale (R79), and of a wide one its slice. With an E8M0
NaN among the exponents the values are open. -/
def writtenElem (f : PlaneFmt) (bs : Bytes) (r c : Nat) : Nat :=
  let e := imageElem f bs r c
  if !fmtMx f then e
  else
    let top := imageTop f bs c
    let v := if top = 0xFF then Config.nanBits e (512 * r + c) % 256
      else if fmtWide f then mxInt8 e (top - nth 0 (imageExps f bs c) (r / 32))
      else mxFp4 e (top - nth 0 (imageExps f bs c) (r / 32))
    match f with
    | .mxint8hi => v / 16
    | .mxint8lo | .mxfp4 | .int4 | .e2m1 | .low => v % 16

/-- The cells of an image, check rows and check columns with them (R119). -/
def imageCells (f : PlaneFmt) (bs : Bytes) : Sparse Nat :=
  planeCells (fullCell (fun r c => fmtCell f (writtenElem f bs r c)))

/-- The scales of an MX tensor's columns: 2^X_max as FP16, at the range's end where it lies outside (R80). -/
def mxScales (f : PlaneFmt) (bs : Bytes) : Sparse Nat :=
  ((upFrom 0 512).map (fun c => (c, if imageTop f bs c = 0xFF then Config.nanBits 0 c % 2 ^ 15 else (mxScale (imageTop f bs c)).1))).filter
    (fun x => x.2 != 0)
/-- Does a column of an MX tensor have a scale outside the range? -/
def mxOut (f : PlaneFmt) (bs : Bytes) : Bool :=
  (fmtMx f) && (upFrom 0 512).any (fun c => imageTop f bs c == 0xFF || (mxScale (imageTop f bs c)).2)

/-- The column scales of an image; an invalid scale is taken as zero (R72). -/
def imageScales (bs : Bytes) : Sparse Nat :=
  ((upFrom 0 512).map (fun c => (c, fieldB bs (2 * c) 2))).filter (fun x => x.2 != 0 && !badScale x.2)
def badScales (bs : Bytes) : Nat := ((upFrom 0 512).filter (fun c => badScale (fieldB bs (2 * c) 2))).length

/-- A residual-list entry (Table 05-4). -/
def residEntry (w : Nat) : Nat × Nat × Int := (bits w 31 23, bits w 22 14, signedOf 8 (bits w 7 0))

/-- The bytes of a load: the image and the residual list after it, decrypted when they come from a shard. -/
def LoadReq.plain (r : LoadReq) (bs : Bytes) : Bytes :=
  match r.crypt with
  | none => bs
  | some k => Config.ctrDecrypt k.key k.shard k.chunk k.block bs

/-- Invalid scales among those that the shim unit accepts (R72). -/
def imageBad (f : PlaneFmt) (bs : Bytes) : Nat := if fmtMx f then 0 else badScales ((bs.drop (fmtElems f)).take 1024)

/-- The plane that a load writes, from blocks with flags `fl`. -/
def loadedPlane (f : PlaneFmt) (r : LoadReq) (bs : Bytes) (fl : Nat) : Plane where
  cells := imageCells f bs
  tag := r.tag
  scales := if fmtMx f then mxScales f bs else imageScales ((bs.drop (fmtElems f)).take 1024)
  resid := (upFrom 0 r.resid).map (fun i => residEntry (fieldB (bs.drop (imageSize f)) (4 * i) 4))
  flags := (Flag.carried fl &&& 14) ||| (if imageBad f bs != 0 || mxOut f bs then Flag.bound else 0)

/-- All rows are written and the shim unit accepts scales and list: the load is complete and accepted. An MX tensor that does not lie
in T1 as a whole is refused. -/
def State.loadComplete (s : State) (die bent a : Nat) (f : PlaneFmt) : State :=
  match (s.arr die bent a).loading with
  | none => s
  | some r =>
    let n := (imageSize f) + 4 * r.resid
    if fmtMx f && !s.devRange r.addr n then
      ((s.onArr die bent a (fun x => { x with loading := none })).refuseLoad die bent a r Err.length).beginNext die bent a
        (s.arr die bent a).waiting
    else
      let rd := s.unitRead r.addr n
      let bs := r.plain rd.1.data
      let A := rd.2.arr die bent a
      let bad := imageBad f bs
      let s1 := rd.2.setArr die bent a { A.setPlane (1 - A.live) (loadedPlane f r bs rd.1.flags) with
        staged := 2, rows := 576, bankState := 2, loading := none, poisoned := r.poison || Flag.isPoison rd.1.flags }
      let s2 := if bad = 0 then s1 else s1.bumpN (shPage die bent a) Reg.SHIM_BAD_SCALE_COUNT bad
      (s2.endLoad r 0).beginNext die bent a A.waiting

/-- 32 slots after a swap: the active coefficient bank has been copied to the staged one, and the old live plane becomes
writable (R122, R151). -/
def State.drainEnd (s : State) (die bent a : Nat) : State :=
  let A := s.arr die bent a
  if A.draining then
    (s.setArr die bent a { A.setCoefs (1 - A.activeCoef) (A.coefs A.activeCoef) with draining := false }).beginNext die bent a
      A.waiting
  else s

def execPlaneDrainEnd (die bent arr : Nat) (s : State) : Host.Outcome State Fault Refusal :=
  ok (s.whenUp (fun s => s.drainEnd die bent arr))

/-! ### Swaps (R121, R122, R151, R280, R281, R288) -/

/-- Is an entry one of a set's? -/
def CalSet.covers (u : CalSet) (key : Nat) : Bool := u.todo.any (fun e => e.1 == key) || u.old.any (fun e => e.1 == key)

/-- Write entries into a bank. -/
def writeCoefs (m : Sparse W32) : List (Nat × W32) → Sparse W32
  | [] => m
  | e :: es => writeCoefs (put unitCoef m e.1 e.2) es

/-- The staged bank at a swap slot: an unfinished update set is discarded, with what has been written of it (R152, R281; log entry
87). -/
def Arr.stagedCoefs (x : Arr) : Sparse W32 :=
  x.cal.update.foldl (fun m u => writeCoefs m u.old) (x.coefs (1 - x.activeCoef))

/-- Windows that go on across a swap: those whose entry is the same in both banks (R280) and in no discarded set (R281), and none
when the swap brings a recalibration's entries (R284). -/
def keptWins (x : Arr) : Sparse (Option CalWin) :=
  if x.cal.closed then []
  else x.cal.wins.filter (fun e => coefOf x.coef0 e.1 == coefOf x.coef1 e.1 && !x.cal.update.any (fun u => u.covers e.1))

/-- The calibration state of an array after the swap slot: a recalibration's entries take effect (R284, R288, R290). -/
def swapCal (x : Arr) (pending : Bool) : CalArr :=
  { x.cal with
    wins := keptWins x
    update := []
    closed := false
    stale := if x.cal.closed then pending else x.cal.stale
    isOver := if x.cal.closed then false else x.cal.isOver }

/-- The planes and banks of an array change roles (Table 04-3). -/
def State.swapArr (s : State) (die bent a : Nat) : State :=
  let A := s.arr die bent a
  let back := if A.livePlane.tag = 0 then 0 else 2
  let s1 := (s.setArr die bent a { A.setCoefs (1 - A.activeCoef) A.stagedCoefs with
    live := 1 - A.live
    activeCoef := 1 - A.activeCoef
    staged := back
    bankState := back
    poisoned := false
    draining := true
    cal := swapCal A ((s.calBent die bent).trigger != 0 || (s.calBent die bent).running.isSome) }).bump (aPage die bent a) Reg.ARR_SWAP_COUNT
  if A.cal.update.isEmpty then s1
  else (s1.bumpN (calPage die bent) Reg.CAL_DISCARD_COUNT A.cal.update.length).raise (calPage die bent) 4

/-- Row of Table 04-3 for an array and the tag a swap expects. -/
inductive SwapState where
  | refused (code : Nat)
  | poisoned
  | accepted
  | wait
  deriving DecidableEq, Repr

def State.swapState (s : State) (die bent a tag : Nat) : SwapState :=
  let A := s.arr die bent a
  if A.stagedPlane.tag ≠ tag then .wait
  else if A.staged = 3 then .refused A.loadError
  else if A.staged = 2 && A.poisoned then .poisoned
  else if A.staged = 2 then .accepted
  else .wait

end Sys2Proof.Machine
end

