-- ==== Sys2Proof/Machine/Calib.lean ====
section
/-!
DEFINITION. Live calibration and full recalibrations (R267 to R290): the estimator of R269, update sets, rate windows,
triggers and their recalibrations.
-/

namespace Sys2Proof.Machine

/-! ### The estimator (R269, R270) -/

def i32 (x : Int) (e : Int) : Nat := intF32 (x < 0) x.natAbs e
def add32 (a b : Nat) : Nat := (fAdd a b).bits
def sub32 (a b : Nat) : Nat := (fSub a b).bits
def mul32 (a b : Nat) : Nat := (fMul a b).bits
def div32 (a b : Nat) : Nat := (fDiv a b).bits
def sqrt32 (a : Nat) : Nat := (fSqrt a).bits
/-- max(0, a). -/
def pos32 (a : Nat) : Nat := if fLt 0 a then a else 0

/-- A finite FP32 number times 2^sh, rounded to the nearest integer, ties to even. -/
def round32 (a : Nat) (sh : Nat) : Int :=
  match fp32.decode a with
  | .fin n m e =>
    let e' := e + sh
    let v : Int := if 0 ≤ e' then (m * 2 ^ e'.toNat : Nat) else rneDiv m (2 ^ (-e').toNat)
    if n then -v else v
  | .inf n => if n then -(2 ^ 40) else 2 ^ 40
  | .nan => 0

/-- An FP32 figure in milli-codes, rounded up and held within 16 bits (R271). -/
def milli (a : Nat) : Nat :=
  match fp32.decode a with
  | .fin false m e => min 0xFFFF (if 0 ≤ e then 1000 * m * 2 ^ e.toNat else ceilDiv (1000 * m) (2 ^ (-e).toNat))
  | .fin true _ _ => 0
  | .inf _ | .nan => 0xFFFF

/-- What a window gives: figures in milli-codes, the new entry, and whether it was clamped (R270). -/
structure Estimate where
  resid : Nat
  noise : Nat
  coef : W32
  clamped : Bool
  deriving DecidableEq, Repr

/-- The estimator of R269, in FP32. -/
def estimate (c : CalWin) : Estimate :=
  let sh : Int := -(4 + (c.k : Int))
  let n := natF32 c.n
  let yb := div32 (i32 c.sy sh) n
  let yy := div32 (i32 c.syy (2 * sh)) n
  let vy := sub32 yy (mul32 yb yb)
  let eb := div32 (i32 c.se sh) n
  let cov := sub32 (div32 (i32 c.sey (2 * sh)) n) (mul32 yb eb)
  let ve := sub32 (div32 (i32 c.see (2 * sh)) n) (mul32 eb eb)
  let beta := if fLt vy (natF32 64) then 0 else div32 cov vy
  let alpha := sub32 eb (mul32 beta yb)
  let v := sub32 ve (mul32 beta cov)
  let resid := add32 (fAbs alpha) (mul32 (fAbs beta) (sqrt32 yy))
  let noise := sqrt32 (pos32 (sub32 v (div32 (natF32 1) (natF32 12))))
  let den := add32 (natF32 1) beta
  let gain := round32 (div32 (i32 (fieldW c.coef 31 16 : Nat) (-15)) den) 15
  let off := round32 (div32 (add32 (i32 (signedOf 16 (fieldW c.coef 15 0)) (-4)) (mul32 alpha (natF32 (2 ^ c.k)))) den) 4
  let g := clampI 0 65535 gain
  let o := clampI (-32768) 32767 off
  ⟨milli resid, milli noise, packW [(16, g.toNat), (0, signedBits 16 o)], g != gain || o != off⟩

/-! ### Published figures (R271) -/

/-- Is an entry a data line? -/
def isData (key : Nat) : Bool := key % 544 < 512

/-- The largest figure of the data lines and the entry that has it, the first among equals. -/
def topFig (m : Sparse Nat) : Nat × Nat :=
  m.foldl (fun acc e => if isData e.1 && acc.2 < e.2 then e else acc) (0, 0)

/-- CAL_RESID_Aa or CAL_NOISE_Aa without its stale bit (Table 09-13): source 0 power-up, 1 recalibration, 2 live window. -/
def figWord (source : Nat) (m : Sparse Nat) : W32 :=
  let t := topFig m
  packW [(29, source), (26, t.1 / 544), (16, t.1 % 544), (0, t.2)]

/-- Publish the figures of an array. -/
def State.publish (s : State) (die bent a source : Nat) : State :=
  let A := s.arr die bent a
  (s.wr (calPage die bent) (0x60 + 16 * a) (figWord source A.cal.resid)).wr (calPage die bent) (0x64 + 16 * a)
    (figWord source A.cal.noise)

/-- Record a line's figures. -/
def CalArr.setFig (c : CalArr) (key resid noise : Nat) : CalArr :=
  { c with resid := put 0 c.resid key resid, noise := put 0 c.noise key noise }

/-! ### Triggers (R283, R288) -/

/-- Counter of each trigger cause: 0 temperature, 1 figure, 2 host. -/
def trigReg (cause : Nat) : Nat :=
  if cause = 0 then Reg.CAL_TRIG_TEMP_COUNT else if cause = 1 then Reg.CAL_TRIG_FIGURE_COUNT else Reg.CAL_TRIG_HOST_COUNT

/-- The figures of every array of a bent become stale. -/
def State.staleBent (s : State) (die bent : Nat) : List Nat → State
  | [] => s
  | a :: as => (s.onArr die bent a (fun x => { x with cal := { x.cal with stale := true } })).staleBent die bent as

/-- Raise a trigger for a bent that is no knot. A temperature trigger that is pending is not raised again; each write of
CAL_CTRL.recal and each figure beyond its trigger raises one (log entry 71). -/
def State.trigger (s : State) (die bent cause : Nat) : State :=
  let b := s.calBent die bent
  if s.bentIsKnot die bent || (cause = 0 && bitAt b.trigger 0) then s
  else
    let s1 := s.setCal die bent { b with
      trigger := if bitAt b.trigger cause then b.trigger else b.trigger + 2 ^ cause
      tick := if b.trigger = 0 then s.time else b.tick }
    ((s1.bump (calPage die bent) (trigReg cause)).raise (calPage die bent) 1).staleBent die bent [0, 1, 2, 3]

/-- A write of CAL_CTRL.recal: ignored while a recalibration of the bent runs (Table 09-4). -/
def execRecal (die bent : Nat) (s : State) : Host.Outcome State Fault Refusal :=
  ok (s.hostPage (calPage die bent) (fun s =>
    if (s.calBent die bent).running.isNone then s.trigger die bent 2 else s))

/-! ### Live windows (R268 to R271, R290) -/

/-- An array goes over a limit of R84 (R290); the event is its becoming so (R291). -/
def State.overLimit (s : State) (die bent a : Nat) : State :=
  if (s.arr die bent a).cal.isOver then s
  else (s.onArr die bent a (fun x => { x with cal := { x.cal with isOver := true } })).raise (calPage die bent) 3

/-- A data line's figures are published; they may raise a trigger, or put the array over a limit. -/
def State.liveFigures (s : State) (die bent a key : Nat) (e : Estimate) : State :=
  let s1 := (s.onArr die bent a (fun x => { x with cal := x.cal.setFig key e.resid e.noise })).publish die bent a 2
  let s2 := if 350 < e.resid || 25 < e.noise then s1.overLimit die bent a else s1
  if 300 < e.resid || 20 < e.noise then s2.trigger die bent 1 else s2

/-- Insert an entry in ascending order: side, then line. -/
def insertCoef (x : Nat × W32) : List (Nat × W32) → List (Nat × W32)
  | [] => [x]
  | y :: ys => if y.1 < x.1 then y :: insertCoef x ys else x :: y :: ys

/-- An entry joins the update set of its beat, opening it if it is the first there; a set that is being written takes no more
(R281). -/
def joinSet (beat : Int) (e : Nat × W32) : List CalSet → List CalSet
  | [] => [⟨beat, [e], []⟩]
  | u :: us => if u.beat = beat && u.old.isEmpty then { u with todo := insertCoef e u.todo } :: us else u :: joinSet beat e us

/-- A full window closes: its entry joins the update set of its beat, and a data line's figures are published. -/
def State.closeWindow (s : State) (die bent a key : Nat) : State :=
  let A := s.arr die bent a
  match look none A.cal.wins key with
  | none => s
  | some c =>
    if c.n < 2 ^ c.w || A.cal.closed then s
    else
      let e := estimate c
      let s1 := s.setArr die bent a { A with cal := { A.cal with
        wins := put none A.cal.wins key none
        update := joinSet c.beat (key, e.coef) A.cal.update } }
      let s2 := if e.clamped then s1.bump (calPage die bent) Reg.CAL_CLAMP_COUNT else s1
      if isData key then s2.liveFigures die bent a key e
      else s2.onArr die bent a (fun x => { x with cal := x.cal.setFig key e.resid e.noise })

def execLiveWindowClose (die bent arr line : Nat) (s : State) : Host.Outcome State Fault Refusal :=
  ok (s.whenUp (fun s => s.closeWindow die bent arr line))

/-- One slot's writing of the oldest update set into the staged bank: 34 entries, unless the bank copy runs (R281). -/
def State.writeUpdates (s : State) (die bent a : Nat) : State :=
  let A := s.arr die bent a
  match A.cal.update with
  | [] => s
  | u :: us =>
    if A.draining then s
    else
      let n := 1 - A.activeCoef
      let now := u.todo.take 34
      let left := u.todo.drop 34
      let u' : CalSet := { u with todo := left, old := u.old ++ now.map (fun e => (e.1, coefOf (A.coefs n) e.1)) }
      (s.setArr die bent a { A.setCoefs n (writeCoefs (A.coefs n) now) with
        cal := { A.cal with update := if left.isEmpty then us else u' :: us } }).bumpN (calPage die bent) Reg.CAL_UPDATE_COUNT now.length

def execUpdateSetWrite (die bent arr : Nat) (s : State) : Host.Outcome State Fault Refusal :=
  ok (s.whenUp (fun s => s.writeUpdates die bent arr))

/-! ### Rate windows (R271, Table 09-14) -/

/-- A rate window of 2^r driven passes is complete. -/
def State.rateEnd (s : State) (die bent a : Nat) : State :=
  let A := s.arr die bent a
  if A.cal.rateN < 2 ^ A.cal.rateLog then s
  else
    let p := calPage die bent
    let s1 := (s.wr p (0x68 + 16 * a) (BitVec.ofNat 32 (min A.cal.rateMiss 0x7FFFFFFF))).wr p (0x6C + 16 * a)
      (BitVec.ofNat 32 (min A.cal.rateSecond 0x7FFFFFFF))
    s1.setArr die bent a { A with cal := { A.cal with
      rateLog := max 20 (s.fld p Reg.CAL_CFG 25 21), rateN := A.cal.rateN - 2 ^ A.cal.rateLog, rateMiss := 0
      rateSecond := 0 } }

def execRateWindowEnd (die bent arr : Nat) (s : State) : Host.Outcome State Fault Refusal :=
  ok (s.whenUp (fun s => s.rateEnd die bent arr))

/-! ### Driven beats of a calibration (R267 to R269, R273, R274, R284) -/

/-- What the beats of a calibration carry along: the LFSR, the next free draw, the windows, the passes driven, those that missed, the
misses within the miss window, and whether two of one group fell into it (R134). -/
structure Fit where
  rand : Nat
  draws : Nat
  wins : Sparse (Option CalWin)
  passes : Nat
  missed : Nat
  misses : List (Bool × Nat × Int)
  perm : Bool
  deriving DecidableEq, Repr

def Fit.start (rand draws : Nat) : Fit := ⟨rand, draws, [], 0, 0, [], false⟩

/-- `n` numbers that the LFSR draws from a list of values. -/
def drawVals (vals : List Int) : Nat → Nat → List Int × Nat
  | 0, r => ([], r)
  | n + 1, r =>
    let x := lfsrNext r
    let t := drawVals vals n x
    (nth 0 vals (Config.lfsrPick x vals.length % vals.length) :: t.1, t.2)

/-- `n` different lines that the LFSR draws from a list. -/
def drawLines : Nat → List Nat → Nat → List Nat × Nat
  | 0, _, r => ([], r)
  | n + 1, l, r =>
    let x := lfsrNext r
    let i := Config.lfsrPick x l.length % l.length
    let t := drawLines n (l.eraseIdx i) x
    (nth 0 l i :: t.1, t.2)

/-- The integers from −m to m. -/
def evenly (m : Nat) : List Int := (upFrom 0 (2 * m + 1)).map (fun (i : Nat) => (i : Int) - (m : Int))

/-- A test vector: `n` lines drawn by the LFSR with inputs uniform over −m to m, the rest zero. -/
def testVector (n m r : Nat) : List Int × Nat :=
  let l := drawLines n (upFrom 0 512) r
  let v := drawVals (evenly m) n l.2
  let on := l.1.zip v.1
  ((upFrom 0 512).map (fun i => ((on.find? (fun e => e.1 == i)).map (fun e => e.2)).getD 0), v.2)

/-- A kind of calibration beat: the plane and the bank that corrects it, the direction, the range code, the length of its windows,
how many lines a vector drives, and the largest input. -/
structure CalDrive where
  pl : Plane
  coefs : Sparse W32
  tr : Bool
  k : Nat
  w : Nat
  lines : Nat
  top : Nat

/-- A sample of a line or node joins its window unless the conversion returned the clip code (R267). -/
def Fit.sample (f : Fit) (d : CalDrive) (l : Nat) (code y : Int) : Fit :=
  let key := coefKey d.tr l
  let c := coefOf d.coefs key
  if code.natAbs = 511 then f
  else { f with wins := put none f.wins key (addSample (look none f.wins key) d.w d.k c f.passes (corr16 code d.k c) (16 * y)) }

/-- One beat: the vector is driven and every line and node of the other side converted, with an error that is free, as the array's
figures are what is being measured. `y` is the exact sum of the line, and the node's of the same sums. -/
def calBeat (d : CalDrive) (f : Fit) : Fit :=
  let v := testVector d.lines d.top f.rand
  let sums := planeSums d.pl d.tr v.1
  let held := heldSums sums f.draws 0
  let lines : List (Nat × Int × Int) :=
    (upFrom 0 512).map (fun l => (l, nth 0 held l, nth 0 sums l)) ++
    (upFrom 0 32).map (fun g => (512 + g, nodeSum held g + Config.disturb f.draws (576 + g), nodeSum sums g))
  let f1 := lines.foldl (fun f e =>
    f.sample d e.1 (adcCode false (512 ≤ e.1) f.draws e.1 d.k (coefOf d.coefs (coefKey d.tr e.1)) e.2.1) e.2.2) f
  { f1 with rand := v.2, draws := f.draws + 1, passes := f.passes + 1 }

/-- `n` beats. -/
def calBeats (beat : Fit → Fit) : Nat → Fit → Fit
  | 0, f => f
  | n + 1, f => calBeats beat n (beat f)

/-- What every window of the 1,088 entries gives when its part of the calibration ends. A line whose every conversion returned the
clip code has no sample: it keeps its entry, and its figures saturate (DESIGN CHOICE, log entry 88). -/
def Fit.estimates (f : Fit) (coefs : Sparse W32) (k w : Nat) : List (Nat × Estimate) :=
  (upFrom 0 1088).map (fun key =>
    let c := (look none f.wins key).getD (CalWin.empty w k (coefOf coefs key))
    (key, if c.n = 0 then ⟨0xFFFF, 0xFFFF, coefOf coefs key, false⟩ else estimate c))

/-- Entries that R270 clamps. -/
def clampedOf (es : List (Nat × Estimate)) : Nat := (es.filter (fun e => e.2.clamped)).length

/-! ### Full recalibration (R284 to R286) -/

/-- May a pending recalibration of a bent start at `t`: its context runs no plan, or waits at a gate (R285)? -/
def State.recalMayStart (s : State) (die bent t : Nat) : Bool :=
  let b := s.calBent die bent
  b.trigger != 0 && b.running.isNone && decide (b.tick ≤ t) &&
    (match s.owner die bent with
      | none => true
      | some c => match s.ctx c with
        | none => true
        | some x => match x.run with
          | none => true
          | some r => r.gate.isSome && !r.released)

/-- The accepted plane swaps of a bent at the gate where a recalibration starts are made first (Table 09-4). -/
def State.swapFirst (s : State) (l : Live) (die bent : Nat) : List (SwapRec × Nat) → State
  | [] => s
  | w :: ws =>
    let k := arrKey die bent w.2
    (if w.1.die = die && w.1.unit = bent && !l.r.swapped.contains k && s.swapState die bent w.2 w.1.tag == .accepted then
      ((s.swapArr die bent w.2).onArr die bent w.2 (fun a => { a with swapWaiting := false })).onRun l.c (fun r => { r with
        swapped := r.swapped ++ [k] })
     else s).swapFirst l die bent ws

/-- What a recalibration at a gate does to the plan that waits there: its swaps, and the extension of its deadlines begins. -/
def State.recalAtGate (s : State) (die bent t : Nat) : State :=
  match s.owner die bent with
  | none => s
  | some c => match s.live c with
    | none => s
    | some l => (s.swapFirst l die bent l.planeSwaps).onRun c (fun r => { r with
        recalFrom := if r.recalFrom.isNone then some t else r.recalFrom })

/-- A recalibration starts: it clears every trigger pending (R283). -/
def State.recalStart (s : State) (die bent t : Nat) : State :=
  if s.recalMayStart die bent t then
    let s1 := s.recalAtGate die bent t
    let b := s1.calBent die bent
    (s1.setCal die bent { b with trigger := 0, running := some b.tNow, moved := false }).staleBent die bent [0, 1, 2, 3]
  else s

/-- The last recalibration that runs on a context's bents has ended: its gate's deadlines have been extended (R285). -/
def State.recalOver (s : State) (die bent t : Nat) : State :=
  match s.owner die bent with
  | none => s
  | some c =>
    if (s.bentsOf c).any (fun b => (look CalBent.reset s.cals b).running.isSome) then s
    else s.onRun c (fun r => match r.recalFrom with
      | some t0 => { r with ext := r.ext + (t - t0), recalFrom := none }
      | none => r)

def execRecalibrationStart (die bent t : Nat) (s : State) : Host.Outcome State Fault Refusal :=
  ok (s.whenUp (fun s => if s.awake die && bent < 128 then (s.at t).recalStart die bent t else s))

/-- Cause that a recalibration's published figures retire an array for, 0 for none (Table 04-5). -/
def retireCause (c : CalArr) : Nat :=
  if 350 < (topFig c.resid).2 then 1 else if 25 < (topFig c.noise).2 then 2 else 0

/-- Take the figures of an array's lines. -/
def CalArr.setFigs (c : CalArr) : List (Nat × Estimate) → CalArr
  | [] => c
  | e :: es => (c.setFig e.1 e.2.resid e.2.noise).setFigs es

/-- One direction of a part of a recalibration: 2^15 beats at k = 3 that each drive 16 lines (R284). -/
def recalDrive (pl : Plane) (coefs : Sparse W32) (f : Fit) : Fit :=
  let beat := fun (tr : Bool) => calBeat ⟨pl, coefs, tr, 3, 15, 16, 15⟩
  calBeats (beat true) (2 ^ 15) (calBeats (beat false) (2 ^ 15) { f with wins := [] })

/-- The parts of R284 for one array: entries from windows corrected with the active bank go into the staged bank, figures from
windows corrected with the staged bank are published, live windows are closed until the swap that brings the entries, and the array
is retired when a figure is over a limit. A retired array has left the recalibration (R286). -/
def State.recalArr (s : State) (die bent a : Nat) : State :=
  let s0 := s.drainEnd die bent a
  let A := s0.arr die bent a
  if A.retired ≠ 0 then s0
  else
    let n := 1 - A.activeCoef
    let f1 := recalDrive A.livePlane (A.coefs A.activeCoef) (Fit.start A.cal.lfsr s0.free)
    let es := f1.estimates (A.coefs A.activeCoef) 3 15
    let new := writeCoefs (A.coefs n) (es.map (fun e => (e.1, e.2.coef)))
    let f2 := recalDrive A.livePlane new f1
    let cal := { A.cal.setFigs (f2.estimates new 3 15) with wins := [], update := [], closed := true, lfsr := f2.rand }
    let s1 := (({ s0 with free := f2.draws } : State).setArr die bent a { A.setCoefs n new with cal := cal }).publish die bent a 1
    let s2 := s1.bumpN (calPage die bent) Reg.CAL_CLAMP_COUNT (clampedOf es)
    if retireCause cal = 0 then s2 else s2.retireArr die bent a (retireCause cal)

def State.recalArrs (s : State) (die bent : Nat) : List Nat → State
  | [] => s
  | a :: as => (s.recalArr die bent a).recalArrs die bent as

/-- A running recalibration ends (R284). A temperature that moved by more than 5 °C from the value at its start raises a new trigger
(Table 09-4). -/
def State.recalEnd (s : State) (die bent t : Nat) : State :=
  match (s.calBent die bent).running with
  | none => s
  | some _ =>
    let p := calPage die bent
    let s1 := s.recalArrs die bent [0, 1, 2, 3]
    let b := s1.calBent die bent
    let s2 := (s1.setCal die bent { b with running := none, moved := false, tCal := b.tNow }).wr64 p Reg.CAL_LAST_TIME t
    let s3 := ((s2.bump p Reg.CAL_RECAL_COUNT).raise p 2).recalOver die bent t
    if b.moved then s3.trigger die bent 0 else s3

/-- `sram` is what the reads of the calibration unit's sums find (R411). -/
def execRecalibrationComplete (die bent t : Nat) (sram : SramRead) (s : State) : Host.Outcome State Fault Refusal :=
  ok (s.whenUp (fun s =>
    (if (s.calBent die bent).running.isSome then (s.at t).sramSeen (calPage die bent) sram none else s.at t).recalEnd die bent t))

end Sys2Proof.Machine
end

