-- ==== Sys2Proof/Machine/Queue.lean ====
section
/-!
DEFINITION. Queues, descriptors and synchronisation objects (R340 to R358, R518 to R523).
-/

namespace Sys2Proof.Machine

abbrev quePage : Page := diePage .que 0
abbrev syncPage : Page := diePage .sync 0

/-! ### Synchronisation objects (R352 to R355) -/

def State.sync (s : State) (i : Nat) : Nat := look 0 s.syncs i
def State.setSync (s : State) (i v : Nat) : State := { s with syncs := put 0 s.syncs i v }

/-- Add to an object: an add past 2⁶⁴ − 1 is refused, leaves the value, is counted (R352), and is latched on the SYNC page, whose
unit finds it (R523). -/
def State.syncAdd (s : State) (i n : Nat) : State :=
  if s.sync i + n < 2 ^ 64 then (s.setSync i (s.sync i + n)).bump syncPage Reg.SYNC_ADD_COUNT
  else ((s.bump syncPage Reg.SYNC_REFUSED_COUNT).latchErr syncPage Err.length none 0 0).raise syncPage 1

/-- Code of an add (R352). -/
def State.syncAddCode (s : State) (i n : Nat) : Nat := if s.sync i + n < 2 ^ 64 then 0 else Err.length

/-- Set an object. -/
def State.syncSet (s : State) (i v : Nat) : State := (s.setSync i v).bump syncPage Reg.SYNC_SET_COUNT

/-! ### Descriptor slots, rings and completion queues (R346 to R351) -/

/-- Slots that a tenant holds. -/
def State.tenantSlots (s : State) (t : Nat) : Nat := (s.que.flights.filter (fun f => f.tenant == t)).length
/-- QUE_TENANT_CAP_Tt.cap; values above 40,000 act as 40,000. -/
def State.tenantCap (s : State) (t : Nat) : Nat := min (s.fld quePage (Reg.QUE_TENANT_CAP_T + 4 * t) 15 0) 40000
/-- May a head of the tenant take a slot (R350)? -/
def State.slotFor (s : State) (t : Nat) : Bool := s.que.flights.length < 40000 && s.tenantSlots t < s.tenantCap t

/-- Place of a waiting head in the round robin of R351. -/
def State.turn (s : State) (q : Nat) (x : Queue) : Nat :=
  (x.tenant + 15 - s.que.lastTenant) % 16 * 2 ^ 16 + (q + 32767 - look 32767 s.que.lastQueue x.tenant) % 32768

/-- Is no other stopped head with a slot to take ahead of queue `q` in the round robin (R351)? -/
def State.firstTurn (s : State) (q : Nat) (x : Queue) : Bool :=
  s.que.stopped.all (fun r => match s.queue r with
    | some y => r == q || !s.slotFor y.tenant || s.turn q x < s.turn r y
    | none => true)

/-- Records of a completion queue that are neither unread nor reserved (R347). -/
def cqRoom (c : Queue) : Bool := (c.tail + 2 ^ 32 - c.head) % 2 ^ 32 + c.reserved < 2 ^ c.q

/-- Address of ring slot `ix`: 64-byte descriptors or 32-byte records (R340). -/
def ringAddr (x : Queue) (ix : Nat) : Nat := x.base + ix % 2 ^ x.q * (if x.completion then 32 else 64)

/-- The device writes an index into a queue's 64-byte control record (R340). -/
def State.writeCtrl (s : State) (home ctrl ix : Nat) : State :=
  if s.devRange ctrl 64 then
    s.unitWrite ctrl (leBytes 4 ix ++ List.replicate 60 (0 : Byte)) 0 (producer home 5 0) 0
  else s

/-- Is the opcode defined, and allowed on the queue (R344, Table 11-11)? Admin descriptors only on an admin queue. -/
def opAllowed (op q : Nat) : Bool :=
  if op = 0x08 || op = 0x09 || op = 0x0A then q < 16
  else op ≤ 0x10 || (0x20 ≤ op && op ≤ 0x27) || (0x30 ≤ op && op ≤ 0x33) || (0x40 ≤ op && op ≤ 0x43)

/-- Steps 1 and 2 of R345 for the common fields: the code that a head fails with before its opcode's own checks, 0 for none. A
wait_before that has held asks no more of its object (R352). -/
def State.headCode (s : State) (q : Nat) (x : Queue) (d : Bytes) : Nat :=
  if !opAllowed (dOpcode d) q then Err.badHandle
  else if dWaitBefore d && !x.met && s.checkHandle x.tenant .sync (dWaitHandle d) != 0 then
    s.checkHandle x.tenant .sync (dWaitHandle d)
  else if dSignalAfter d then s.checkHandle x.tenant .sync (dSignalHandle d)
  else 0

/-- The code of a SYNC_WAIT's own handle, after those of the common fields. -/
def State.waitCode (s : State) (q : Nat) (x : Queue) (d : Bytes) : Nat :=
  if s.headCode q x d ≠ 0 then s.headCode q x d else s.checkHandle x.tenant .sync (dHandle d)

/-- Look at the head's wait_before: once its value is reached it stays satisfied (R352, R354). -/
def State.seeWait (s : State) (q : Nat) (x : Queue) (d : Bytes) : Queue :=
  { x with met := x.met ||
      (dWaitBefore d && s.headCode q x d == 0 && decide (dWaitValue d ≤ s.sync (hIdx (dWaitHandle d)))) }

/-- The descriptor at a queue's head, when one waits there. -/
def State.headDesc (s : State) (x : Queue) : Bytes := s.mem.view (ringAddr x x.head) 64

/-- Does the descriptor's codeword hold unusable data (Table 14-11)? -/
def State.headPoisoned (s : State) (x : Queue) : Bool := s.mem.cwBad (ringAddr x x.head / 64)

/-- Does a further seal of a learning context wait for the one that runs (R260)? -/
def State.sealHeld (s : State) (x : Queue) (d : Bytes) : Bool :=
  dOpcode d == 0x32 && s.checkHandle x.tenant .ctx (dHandle d) == 0 &&
    (((s.ctx (hIdx (dHandle d))).any (fun c => c.sealOp.isSome)) ||
      s.que.flights.any (fun f => f.phase != .done && dOpcode f.desc == 0x32 && dHandle f.desc == dHandle d))

/-- Does something keep the head unconsumed (R260, R346)? -/
def State.headHeld (s : State) (q : Nat) (x : Queue) (d : Bytes) : Bool :=
  s.sealHeld x d ||
  (dFence d && s.que.flights.any (fun f => f.q == q)) ||
  (dWaitBefore d && !x.met && s.headCode q x d == 0 && s.sync (hIdx (dWaitHandle d)) < dWaitValue d)

/-- Put a consumed head into flight: its slot, its reserved record, the new head in the control record (R340, R347, R350). -/
def State.takeHead (s : State) (q : Nat) (x : Queue) (f : Flight) : State :=
  let s1 := s.setQueue q (some { x with
    head := (x.head + 1) % 2 ^ 32, delayed := false, met := false, waiting := false, outcome := none })
  let s2 := match s1.queue x.cq with
    | some c => s1.setQueue x.cq (some { c with reserved := c.reserved + 1 })
    | none => s1
  let s3 := { s2 with que := { s2.que with
    flights := s2.que.flights ++ [f]
    stopped := s2.que.stopped.filter (fun r => r != q)
    lastTenant := x.tenant
    lastQueue := put 32767 s2.que.lastQueue x.tenant q } }
  s3.writeCtrl x.home x.ctrl ((x.head + 1) % 2 ^ 32)

/-- A head that finds no room in its completion queue stays, and is counted once (R347). -/
def State.delayHead (s : State) (q : Nat) (x : Queue) : State :=
  if x.delayed then s else (s.setQueue q (some { x with delayed := true })).bump quePage Reg.QUE_CQ_FULL_COUNT

/-- A head that finds no slot stops (R350). -/
def State.stopHead (s : State) (q : Nat) : State :=
  let s1 := { s with que := { s.que with stopped := insertAsc q s.que.stopped } }
  if s.que.stopped.isEmpty then s1.raise quePage 1 else s1

/-- What a consumed head's flight is: failed at once, its outcome already fixed, or started. -/
def flightOf (q : Nat) (x : Queue) (handle : Nat) (d : Bytes) (phase : FPhase) (status : Nat) : Flight :=
  ⟨q, x.head, x.tenant, handle, x.cq, x.home, d, phase, status, 0, 0⟩

/-- Where a head that fails is latched (R523): a SYNC_WAIT that has waited fails at its object. -/
def headPage (x : Queue) (d : Bytes) : Page :=
  if dOpcode d = 3 && (x.waiting || x.outcome.isSome) then syncPage else opPage x.home (dOpcode d)

/-- Consume a queue's head into a flight, if its completion queue and the slots allow it (R347, R350, R351). -/
def State.consumeHead (s : State) (q : Nat) (x : Queue) (d : Bytes) (phase : FPhase) (status : Nat) : State :=
  match s.queue x.cq with
  | none => s
  | some c =>
    if !cqRoom c then s.delayHead q x
    else if !(s.slotFor x.tenant && s.firstTurn q x) then s.stopHead q
    else
      let s0 := s.takeHead q x (flightOf q x (s.handleOf .que q) d phase status)
      let s1 := if dWaitBefore d && s.headCode q x d == 0 then s0.bump syncPage Reg.SYNC_WAIT_COUNT else s0
      if phase = .done && status ≠ 0 then s1.latchErr (headPage x d) status (descCtx d) 0 0 else s1

/-- DESCRIPTOR_CONSUME: the queue engine starts the descriptor at a queue's head. A SYNC_WAIT is consumed only once its
outcome is fixed, and then with it. Nothing is fetched from outside the device part of T1 (R35). A descriptor whose SRAM word is uncorrectable is consumed as a poisoned one (R411). -/
def State.consume (s : State) (q : Nat) (sram : SramRead) : State :=
  match s.queue q with
  | none => s
  | some x =>
    if x.completion || x.stopping || x.head == x.tail || !s.awake x.home || !s.devRange (ringAddr x x.head) 64 then s
    else
      let d := s.headDesc x
      let y := s.seeWait q x d
      let s0 := ((s.touchCws [ringAddr x x.head / 64]).sramSeen quePage sram none).setQueue q (some y)
      if s.headPoisoned x || sramLost sram then s0.consumeHead q y d .done Err.poison
      else match y.outcome with
        | some st => s0.consumeHead q y d .done st
        | none =>
          if s0.headHeld q y d then s0
          else
            let code := if dOpcode d = 3 then s0.waitCode q y d else s0.headCode q y d
            if code ≠ 0 then s0.consumeHead q y d .done code
            else if dOpcode d = 3 then s0
            else s0.consumeHead q y d .started 0

def execDescriptorConsume (q t : Nat) (sram : SramRead) (s : State) : Host.Outcome State Fault Refusal :=
  ok (s.whenUp (fun s => (s.at t).consume q sram))

/-! ### Completion (R346, Table 11-12) -/

/-- The completion record of a flight. -/
def recordOf (f : Flight) (t : Nat) : Bytes :=
  leBytes 4 (dTag f.desc) ++ leBytes 4 f.handle ++ leBytes 4 f.ix ++ leBytes 1 f.status ++ leBytes 1 0 ++
    leBytes 2 f.detail ++ leBytes 8 f.result ++ leBytes 8 t

/-- Write a record at a completion queue's tail and its control record, and give the reservation back; `kind` is the producer's
kind (Table 14-8). No record is written outside the device part of T1 (R35). -/
def State.writeRecordBy (s : State) (kind cq : Nat) (rec : Bytes) : State :=
  match s.queue cq with
  | none => s
  | some c =>
    let s1 := if s.devRange (ringAddr c c.tail) 32 then s.unitWrite (ringAddr c c.tail) rec 0 (producer c.home kind 0) 0 else s
    (s1.setQueue cq (some { c with tail := (c.tail + 1) % 2 ^ 32, reserved := c.reserved - 1 })).writeCtrl c.home c.ctrl
      ((c.tail + 1) % 2 ^ 32)

def State.writeRecord (s : State) (cq : Nat) (rec : Bytes) : State := s.writeRecordBy 5 cq rec

/-- Give a reserved record back unwritten (bit 2 of the flags, R346). -/
def State.unreserve (s : State) (cq : Nat) : State :=
  match s.queue cq with
  | none => s
  | some c => s.setQueue cq (some { c with reserved := c.reserved - 1 })

/-- Send a completion queue's MSI-X message through F0 (R346 step 3). -/
def State.cqMessage (s : State) (cq : Nat) : State :=
  match s.queue cq with
  | none => s
  | some c => if c.msix < 2048 then s.sendMsix 0 c.msix else s

/-- Mark an admin queue's slot as holding a queue or not. -/
def State.markAdmin (s : State) (i : Nat) (b : Bool) : State :=
  let tb := s.handles.que
  { s with handles := { s.handles with que := { tb with
    slots := put Slot.unused tb.slots i { look Slot.unused tb.slots i with live := b } } } }

/-- The queues of a tenant's admin pair go (R341). -/
def State.dropAdmin (s : State) (t : Nat) : State :=
  (((s.setQueue t none).setQueue (16 + t) none).markAdmin t false).markAdmin (16 + t) false

/-- A stopping admin queue whose last consumed descriptor has completed goes with its completion queue (R341). -/
def State.endAdmin (s : State) (q : Nat) : State :=
  match s.queue q with
  | some x => if q < 16 && x.stopping && !s.que.flights.any (fun f => f.q == q) then s.dropAdmin q else s
  | none => s

/-- Apply signal_after (R346 step 2). A handle that does not pass signals nothing. -/
def State.signalAfter (s : State) (f : Flight) : State :=
  if dSignalAfter f.desc && s.checkHandle f.tenant .sync (dSignalHandle f.desc) == 0 then
    s.syncAdd (hIdx (dSignalHandle f.desc)) (dSignalAdd f.desc)
  else s

/-- A done flight completes: record, signal, message, in that order; its slot frees. -/
def State.complete (s : State) (f : Flight) (t : Nat) : State :=
  let silent := dErrorOnly f.desc && f.status == 0
  let s1 := if silent then s.unreserve f.cq else s.writeRecord f.cq (recordOf f t)
  let s2 := s1.signalAfter f
  let s3 := if silent then s2 else s2.cqMessage f.cq
  let s4 := { s3 with que := { s3.que with flights := s3.que.flights.filter (fun g => !isFlight f.q f.ix g) } }
  let s5 := s4.bump quePage Reg.QUE_DESC_COUNT
  (if f.status = 0 then s5 else s5.bump quePage Reg.QUE_ERROR_COUNT).endAdmin f.q

def execDescriptorComplete (q ix t : Nat) (s : State) : Host.Outcome State Fault Refusal :=
  ok (s.whenUp (fun s => match s.flight q ix with
    | some f => if f.phase = .done then (s.at t).complete f t else s
    | none => s))

/-! ### SYNC_WAIT (R354) -/

/-- Fix the outcome of the SYNC_WAIT at a queue's head as TIMEOUT. -/
def State.fixTimeout (s : State) (q : Nat) (x : Queue) : State :=
  (s.setQueue q (some { x with outcome := some Err.timeout })).bump syncPage Reg.SYNC_TIMEOUT_COUNT

/-- Evaluate the SYNC_WAIT at a queue's head at tick `t`: its outcome is fixed, or it waits. A wait whose deadline passed before
`t` ends with TIMEOUT, unless this is its first evaluation and it holds (R354). -/
def State.fixWait (s : State) (q : Nat) (x : Queue) (d : Bytes) (t : Nat) : State :=
  let dl := dField d 0x30 8
  let late := dl ≠ 0 && dl < t
  if late && (x.waiting || s.sync (hIdx (dHandle d)) < dField d 0x28 8) then s.fixTimeout q x
  else if dField d 0x28 8 ≤ s.sync (hIdx (dHandle d)) then
    let s1 := (s.setQueue q (some { x with outcome := some 0 })).bump syncPage Reg.SYNC_WAIT_COUNT
    if dl ≠ 0 && dl = t then s1.bump syncPage Reg.SYNC_TIE_COUNT else s1
  else s.setQueue q (some { x with waiting := true })

/-- Consume the SYNC_WAIT at a queue's head if its outcome is fixed. -/
def State.takeFixed (s : State) (q : Nat) : State :=
  if (s.queue q).any (fun x => x.outcome.isSome) then s.consume q .clean else s

def State.evalWait (s : State) (q : Nat) (x : Queue) (d : Bytes) (t : Nat) : State := (s.fixWait q x d t).takeFixed q

/-- Run `g` on a queue whose head is a SYNC_WAIT with valid handles and no outcome yet. -/
def State.onWaitHead (s : State) (q : Nat) (g : State → Queue → Bytes → State) : State :=
  match s.queue q with
  | none => s
  | some x =>
    let d := s.headDesc x
    let y := s.seeWait q x d
    if x.completion || x.stopping || x.head == x.tail || !s.awake x.home || !s.devRange (ringAddr x x.head) 64
      || x.outcome.isSome || s.headPoisoned x || dOpcode d != 3 || s.waitCode q y d != 0 || s.headHeld q y d then s
    else g s y d

/-- The SYNC_WAIT at a queue's head reads its object: one that cannot be read ends the wait with POISON_CONSUMED (Table 14-11). -/
def State.lookWait (s : State) (q : Nat) (x : Queue) (d : Bytes) (seen : SeenAt) : State :=
  let s1 := s.sramSeen syncPage seen.sram none
  if sramLost seen.sram then (s1.setQueue q (some { x with outcome := some Err.poison })).takeFixed q
  else s1.evalWait q x d seen.t

def execSyncWait (q : Nat) (seen : SeenAt) (s : State) : Host.Outcome State Fault Refusal :=
  ok (s.whenUp (fun s => (s.at seen.t).onWaitHead q (fun s x d => s.lookWait q x d seen)))

/-- The deadline of the SYNC_WAIT at a queue's head is reached and its object is below the target, or it passed while the wait
stood: TIMEOUT (R354). -/
def State.waitTimeout (s : State) (q : Nat) (x : Queue) (d : Bytes) (t : Nat) : State :=
  let dl := dField d 0x30 8
  if dl ≠ 0 && dl ≤ t && (s.sync (hIdx (dHandle d)) < dField d 0x28 8 || x.waiting && dl < t) then
    (s.fixTimeout q x).takeFixed q
  else s

def execSyncWaitDeadline (q t : Nat) (s : State) : Host.Outcome State Fault Refusal :=
  ok (s.whenUp (fun s => (s.at t).onWaitHead q (fun s x d => s.waitTimeout q x d t)))

/-! ### NOP and the SYNC opcodes -/

def execNop (q ix : Nat) (s : State) : Host.Outcome State Fault Refusal :=
  ok (s.runFlight q ix 0x00 (fun s f => s.passOp f 0))

def execSyncAdd (q ix : Nat) (s : State) : Host.Outcome State Fault Refusal :=
  ok (s.runFlight q ix 0x01 (fun s f =>
    let h := dHandle f.desc
    s.checked f (s.checkHandle f.tenant .sync h)
      (let n := dField f.desc 0x28 8
       (s.syncAdd (hIdx h) n).finish f.q f.ix (s.syncAddCode (hIdx h) n) 0 0)))

def execSyncSet (q ix : Nat) (s : State) : Host.Outcome State Fault Refusal :=
  ok (s.runFlight q ix 0x02 (fun s f =>
    let h := dHandle f.desc
    s.checked f (s.checkHandle f.tenant .sync h) ((s.syncSet (hIdx h) (dField f.desc 0x28 8)).passOp f 0)))

def execSyncCreate (q ix : Nat) (s : State) : Host.Outcome State Fault Refusal :=
  ok (s.runFlight q ix 0x04 (fun s f =>
    if s.hasFreeSlot .sync then
      let i := s.nextSlot .sync
      let s1 := (s.takeSlot .sync f.tenant).setSync i (dField f.desc 0x28 8)
      s1.passOp f (s1.handleOf .sync i)
    else s.failOp f Err.length 0))

/-- Does another flight hold a signal on the object (R60)? -/
def State.syncInUse (s : State) (f : Flight) (h : Nat) : Bool :=
  s.que.flights.any (fun g => !isFlight f.q f.ix g && dSignalAfter g.desc && dSignalHandle g.desc == h)

/-- The head of queue `q` waits on the object, which is about to go: a wait that the value satisfies succeeds (R355). The outcome of
a SYNC_WAIT is fixed; one that the value does not satisfy keeps a handle that no longer passes. -/
def State.settleHead (s : State) (h q : Nat) (x : Queue) : State :=
  let d := s.headDesc x
  let y := s.seeWait q x d
  if x.completion || x.stopping || x.head == x.tail || !s.devRange (ringAddr x x.head) 64 || s.headPoisoned x then s
  else
    let s1 := if dWaitBefore d && dWaitHandle d == h then s.setQueue q (some y) else s
    if dOpcode d == 3 && dHandle d == h && x.outcome.isNone && s.waitCode q y d == 0 && !s.headHeld q y d &&
        (dField d 0x28 8 ≤ s.sync (hIdx h) || y.waiting) then s1.fixWait q y d s.time
    else s1

/-- The heads of all queues that wait on an object that is about to go. -/
def State.settleHeads (s : State) (h : Nat) : List Nat → State
  | [] => s
  | q :: qs => (match s.queue q with
    | some x => s.settleHead h q x
    | none => s).settleHeads h qs

/-! ### Queues -/

/-- The checks of R518 in order. -/
def State.queueCreateCode (s : State) (tenant : Nat) (d : Bytes) : Nat :=
  let kind := dField d 0x29 1
  let qb := dField d 0x28 1
  let cq := dField d 0x2C 4
  if kind = 0 && s.checkHandle tenant .que cq != 0 then s.checkHandle tenant .que cq
  else if qb < 4 || 16 < qb || 1 < kind || !s.devRange (dField d 0x20 8) (2 ^ qb * (if kind = 1 then 32 else 64))
    || !s.devRange (dField d 0x30 8) 64 || dField d 0x30 8 % 64 != 0 then Err.length
  else if !s.dieOk (dField d 0x2A 1) then Err.absentUnit
  else if kind = 0 && !(match s.queue (hIdx cq) with | some c => c.completion | none => false) then Err.badHandle
  else if !s.hasFreeSlot .que then Err.length
  else 0

/-- The queue that a QUEUE_CREATE makes. -/
def newQueue (tenant : Nat) (d : Bytes) : Queue :=
  let isCq := dField d 0x29 1 == 1
  { completion := isCq
    tenant := tenant
    base := dField d 0x20 8
    q := dField d 0x28 1
    home := dField d 0x2A 1
    cq := if isCq then 0 else hIdx (dField d 0x2C 4)
    msix := if isCq && dField d 0x2C 2 < 2048 then dField d 0x2C 2 else 0xFFFF
    ctrl := dField d 0x30 8
    head := 0
    tail := 0
    reserved := 0
    stopping := false
    delayed := false
    met := false
    waiting := false
    outcome := none }

def execQueueCreate (q ix : Nat) (s : State) : Host.Outcome State Fault Refusal :=
  ok (s.runFlight q ix 0x06 (fun s f =>
    s.checked f (s.queueCreateCode f.tenant f.desc)
      (let i := s.nextSlot .que
       let s1 := (s.takeSlot .que f.tenant).setQueue i (some (newQueue f.tenant f.desc))
       s1.passOp f (s1.handleOf .que i))))

/-- Does a live submission queue, or a live request (R365), name the completion queue? -/
def State.cqNamed (s : State) (i : Nat) : Bool :=
  s.que.queues.any (fun e => match e.2 with
    | some x => !x.completion && x.cq == i
    | none => false) ||
  s.req.entries.any (fun e => match e.2 with
    | some r => 1 ≤ r.state && r.state ≤ 6 && hIdx r.output == i
    | none => false)

/-- Take a queue away: its slot, and its place among the stopped heads. -/
def State.dropQueue (s : State) (i : Nat) : State :=
  ({ s with que := { s.que with
    queues := put none s.que.queues i none
    stopped := s.que.stopped.filter (fun r => r != i) } } : State).dropSlot .que i

/-- QUEUE_DESTROY (R348): a submission queue stops at once and goes when every other descriptor it consumed has completed. -/
def execQueueDestroy (q ix : Nat) (s : State) : Host.Outcome State Fault Refusal :=
  ok (s.runFlight q ix 0x07 (fun s f =>
    let h := dHandle f.desc
    let i := hIdx h
    s.checked f (s.checkHandle f.tenant .que h)
      (if i < 32 then s.failOp f Err.badHandle 0
       else match s.queue i with
        | none => s.failOp f Err.staleHandle 0
        | some x =>
          if x.completion then
            (if s.cqNamed i then s.failOp f Err.badHandle 0 else (s.dropQueue i).passOp f 0)
          else if s.que.flights.any (fun g => g.q == i && !isFlight f.q f.ix g) then
            s.setQueue i (some { x with stopping := true })
          else (s.dropQueue i).passOp f 0)))

/-! ### Doorbells (R343) -/

/-- The code of a doorbell: that of its handle, or an index fault. -/
def State.doorbellCode (s : State) (h ix : Nat) : Nat :=
  if s.checkOwn .que h ≠ 0 then s.checkOwn .que h
  else match s.queue (hIdx h) with
    | none => Err.staleHandle
    | some x =>
      let held := (x.tail + 2 ^ 32 - x.head) % 2 ^ 32
      if x.completion then (if held < (ix + 2 ^ 32 - x.head) % 2 ^ 32 then Err.length else 0)
      else
        let n := (ix + 2 ^ 32 - x.head) % 2 ^ 32
        if n < held || 2 ^ x.q < n then Err.length else 0

/-- Ring a queue: the new tail of a submission queue or the new head of a completion queue. -/
def State.doorbell (s : State) (v : Nat) : State :=
  let h := bits v 31 0
  let ix := bits v 63 32
  if s.doorbellCode h ix = 0 then
    match s.queue (hIdx h) with
    | some x => s.setQueue (hIdx h) (some (if x.completion then { x with head := ix } else { x with tail := ix }))
    | none => s
  else ((s.latchErr quePage (s.doorbellCode h ix) none 0 0).bump quePage Reg.QUE_DOORBELL_DROP_COUNT).raise quePage 2

def execQueDoorbell (value : BitVec 64) (s : State) : Host.Outcome State Fault Refusal :=
  ok (s.hostPage quePage (fun s => s.doorbell value.toNat))

/-! ### Admin queues (R341, R342) -/

/-- The tenant that QUE_ADMIN_SEL shows. -/
def State.adminSel (s : State) : Nat := s.fld quePage Reg.QUE_ADMIN_SEL 3 0

def adminQueue (completion : Bool) (t base ctrl msix : Nat) : Queue :=
  { completion := completion
    tenant := t
    base := if completion then base + 0x8000 else base
    q := if completion then 10 else 9
    home := 0
    cq := if completion then 0 else 16 + t
    msix := if completion && msix < 2048 then msix else 0xFFFF
    ctrl := if completion then ctrl + 0x40 else ctrl
    head := 0
    tail := 0
    reserved := 0
    stopping := false
    delayed := false
    met := false
    waiting := false
    outcome := none }

/-- Do both admin queues of a tenant not exist? -/
def State.adminGone (s : State) (t : Nat) : Bool := (s.queue t).isNone && (s.queue (16 + t)).isNone

/-- Setting QUE_ADMIN_CFG.enable creates both queues empty and writes their control records (R342). While the old queues
still exist the write is ignored (R341). -/
def State.adminEnable (s : State) (t msix : Nat) : State :=
  if look false s.que.adminEn t || !s.adminGone t then s
  else
    let base := look 0 s.que.adminBase t
    let ctrl := look 0 s.que.adminCtrl t
    let s1 := { s with que := { s.que with
      adminEn := put false s.que.adminEn t true
      adminMsix := put 0xFFFF s.que.adminMsix t msix } }
    let s2 := (s1.setQueue t (some (adminQueue false t base ctrl msix))).setQueue (16 + t)
      (some (adminQueue true t base ctrl msix))
    (((s2.markAdmin t true).markAdmin (16 + t) true).writeCtrl 0 ctrl 0).writeCtrl 0 (ctrl + 0x40) 0

/-- Clearing QUE_ADMIN_CFG.enable destroys them in the order of R341. -/
def State.adminDisable (s : State) (t : Nat) : State :=
  if !look false s.que.adminEn t then s
  else
    let s1 := ({ s with que := { s.que with
      adminEn := put false s.que.adminEn t false
      stopped := s.que.stopped.filter (fun r => r != t) } } : State).markAdmin t false
    match s1.queue t with
    | none => s1
    | some x =>
      let s2 := s1.setQueue t (some { x with stopping := true })
      if s2.que.flights.any (fun f => f.q == t) then s2 else s2.dropAdmin t

def execAdminQueueEnable (msix : Nat) (s : State) : Host.Outcome State Fault Refusal :=
  ok (s.hostPage quePage (fun s => s.adminEnable s.adminSel msix))

def execAdminQueueDisable (s : State) : Host.Outcome State Fault Refusal :=
  ok (s.hostPage quePage (fun s => s.adminDisable s.adminSel))

/-! ### Host commands on synchronisation objects (R358) -/

/-- Result of the last host command (Table 11-35). A failure raises bit 2. -/
def State.hostSyncEnd (s : State) (code : Nat) : State :=
  let s1 := s.wr syncPage Reg.SYNC_HOST_CMD (packW [(24, code)])
  if code = 0 then s1 else s1.raise syncPage 2

def State.hostHandle (s : State) : Nat := (s.rd syncPage Reg.SYNC_HOST_HANDLE).toNat
def State.hostValue (s : State) : Nat := s.rd64 syncPage Reg.SYNC_HOST_VALUE

/-- Run a host command on the object of SYNC_HOST_HANDLE, validated as its own tenant's. -/
def State.hostSync (s : State) (g : State → Nat → State) (code : Nat → Nat) : State :=
  let c := s.checkOwn .sync s.hostHandle
  if c ≠ 0 then (s.latchErr syncPage c none 0 0).hostSyncEnd c
  else (g s (hIdx s.hostHandle)).hostSyncEnd (code (hIdx s.hostHandle))

def State.hostSyncRead (s : State) : State :=
  s.hostSync (fun s i => s.wr64 syncPage Reg.SYNC_HOST_VALUE (s.sync i)) (fun _ => 0)
def State.hostSyncAdd (s : State) : State :=
  s.hostSync (fun s' i => s'.syncAdd i s.hostValue) (fun i => s.syncAddCode i s.hostValue)
def State.hostSyncSet (s : State) : State :=
  s.hostSync (fun s' i => s'.syncSet i s.hostValue) (fun _ => 0)

def execSyncHostRead (s : State) : Host.Outcome State Fault Refusal := ok (s.hostPage syncPage (fun s => s.hostSyncRead))
def execSyncHostAdd (s : State) : Host.Outcome State Fault Refusal := ok (s.hostPage syncPage (fun s => s.hostSyncAdd))
def execSyncHostSet (s : State) : Host.Outcome State Fault Refusal := ok (s.hostPage syncPage (fun s => s.hostSyncSet))

/-! ### COPY (R349, R432, R520) -/

/-- Move whole aligned blocks with their scribes: how many arrive poisoned, and the state after. -/
def State.moveBlks (s : State) (src dst : Nat) : Nat → Nat × State
  | 0 => (0, s)
  | n + 1 =>
    let r := s.moveBlk src dst
    let rs := r.2.moveBlks (src + 1) (dst + 1) n
    (b2n (Flag.isPoison r.1) + rs.1, rs.2)

/-- Copy a range. Where source and destination are block aligned alike, whole blocks carry their scribes (Table 14-9); other
parts follow R426. -/
def State.copyRange (s : State) (home src dst n : Nat) : Nat × State :=
  if src % 4096 = 0 && dst % 4096 = 0 then
    let r := s.moveBlks (src / 4096) (dst / 4096) (n / 4096)
    let k := n / 4096 * 4096
    if n % 4096 = 0 then r
    else
      let t := r.2.unitRead (src + k) (n % 4096)
      (r.1 + b2n (Flag.isPoison t.1.flags), t.2.unitWrite (dst + k) t.1.data 0 (producer home 5 0) t.1.flags)
  else
    let t := s.unitRead src n
    ((if Flag.isPoison t.1.flags then (blksOf dst n).length else 0),
      t.2.unitWrite dst t.1.data 0 (producer home 5 0) t.1.flags)

/-- Code of a COPY's field checks (R349, R520). -/
def State.copyCode (s : State) (d : Bytes) : Nat :=
  let n := dField d 0x30 8
  if n = 0 then 0
  else if dField d 0x38 8 < n || !s.devRange (dField d 0x20 8) n || !s.devRange (dField d 0x28 8) n then Err.length
  else 0

def execCopy (q ix : Nat) (s : State) : Host.Outcome State Fault Refusal :=
  ok (s.runFlight q ix 0x10 (fun s f =>
    s.checked f (s.copyCode f.desc)
      (let r := s.copyRange f.home (dField f.desc 0x20 8) (dField f.desc 0x28 8) (dField f.desc 0x30 8)
       let pg := diePage .scrb f.home
       let s1 := if r.1 = 0 then r.2 else (r.2.bumpN pg Reg.SCRB_POISON_SET_COUNT r.1).raise pg 3
       s1.finish f.q f.ix 0 (min r.1 0xFFFF) 0)))

end Sys2Proof.Machine
end

