-- ==== Sys2Proof/Machine/Requests.lean ====
section
/-!
DEFINITION. The cut list (chapter 12): its entries, the request opcodes of Table 12-3, the end of a request with its final
record, expiry, the census, and the references of weight generations (R382).
-/

namespace Sys2Proof.Machine

abbrev reqPage : Page := diePage .req 0

/-! ### Entries (Tables 12-1 and 12-2) -/

abbrev Rq.admitted : Nat := 1
abbrev Rq.prefill : Nat := 2
abbrev Rq.decode : Nat := 3
abbrev Rq.paused : Nat := 4
abbrev Rq.spilled : Nat := 5
abbrev Rq.resuming : Nat := 6
abbrev Rq.completed : Nat := 7
abbrev Rq.cancelled : Nat := 8
abbrev Rq.expired : Nat := 9
abbrev Rq.faulted : Nat := 10
/-- No state of Table 12-2: the entry's state cannot be read, and no group of the census holds the entry (Table 14-11). -/
abbrev Rq.unread : Nat := 15

def ReqEnt.live (x : ReqEnt) : Bool := 1 ≤ x.state && x.state ≤ 6 || x.state == Rq.unread
def ReqEnt.working (x : ReqEnt) : Bool := 1 ≤ x.state && x.state ≤ 3
/-- The working state of a request (R361). -/
def ReqEnt.workState (x : ReqEnt) : Nat :=
  if x.length = 0 then Rq.admitted else if x.length < x.promptLen then Rq.prefill else Rq.decode

/-- The 128 bytes of an entry (Table 12-1). `ctxHandle` is the handle of its context. -/
def ReqEnt.bytes (x : ReqEnt) (ctxHandle : Nat) : Bytes :=
  leBytes 8 (x.state * 2 ^ 60 + x.priority * 2 ^ 57 + b2n x.spillable * 2 ^ 56 + b2n x.follow * 2 ^ 55 +
    b2n x.boundStrict * 2 ^ 54 + b2n x.cancelPending * 2 ^ 53 + b2n x.cancelLate * 2 ^ 52 + b2n x.spillHold * 2 ^ 51 +
    b2n x.yielded * 2 ^ 50 + b2n x.deadlineMissed * 2 ^ 49 + b2n x.pausePending * 2 ^ 48 + x.specLen * 2 ^ 40 +
    x.endCode * 2 ^ 32 + x.rejectRun * 2 ^ 24) ++
  leBytes 8 (ctxHandle * 2 ^ 32 + x.gen) ++ leBytes 8 (x.length * 2 ^ 32 + x.promptLen) ++ leBytes 8 x.dir ++
  leBytes 8 (x.ringHead * 2 ^ 32 + x.ringTail) ++ leBytes 8 x.deadline ++ leBytes 8 (x.interval * 2 ^ 32 + x.ttl) ++
  leBytes 8 x.pauseStamp ++ leBytes 8 x.admitStamp ++ leBytes 8 (x.output * 2 ^ 32 + x.userTag) ++
  leBytes 8 (x.stopToken * 2 ^ 32 + x.maxNew) ++ leBytes 8 (x.outCount * 2 ^ 32 + x.switchStep) ++ leBytes 8 x.promptAddr ++
  leBytes 8 x.draftAddr ++ leBytes 8 (x.draftCount * 2 ^ 56) ++ leBytes 8 x.expireAt

/-- An entry as software sees it; FREE entries read as zero. -/
def State.entryBytes (s : State) (i : Nat) : Bytes :=
  match s.reqEnt i with
  | some x => x.bytes (s.handleOf .ctx x.ctx)
  | none => List.replicate 128 (0 : Byte)

/-- Entries of a context, ascending, as (index, entry). -/
def State.reqsOf (s : State) (c : Nat) : List (Nat × ReqEnt) :=
  s.req.entries.filterMap (fun e => match e.2 with
    | some x => if x.ctx = c then some (e.1, x) else none
    | none => none)

/-! ### Generation references (R382, R405) -/

/-- Does a live request name the generation? -/
def State.reqNamesGen (s : State) (h : Nat) : Bool :=
  s.req.entries.any (fun e => match e.2 with
    | some x => x.live && x.gen == h
    | none => false)

/-- Has the generation of handle `h` a reference: a live request, being current, or a step fixed to it? -/
def State.genHeld (s : State) (c h : Nat) : Bool :=
  s.reqNamesGen h || (match s.ctx c with
    | some x => x.curGen == h || x.genQueue.any (fun g => g.1 == h) || (match x.run with
      | some r => (r.inStep && r.stepGen == h) || r.nextGen == h
      | none => false)
    | none => false)

/-- A generation is freed: its keys, areas and plane table go and its slot's handle generation rises (R405). -/
def State.freeGen (s : State) (i : Nat) : State := { s with gens := put none s.gens i none }.dropSlot .gen i

/-- Free the generations of a context whose references are gone. -/
def State.settleGens (s : State) (c : Nat) : State :=
  (s.gens.filter (fun e => match e.2 with
    | some g => g.ctx == c && g.readyAt.isSome && !s.genHeld c (s.handleOf .gen e.1)
    | none => false)).foldl (fun s e => s.freeGen e.1) s

/-- Generations of a context that are ready at or before a stamp become current in the order of their readiness; the last one
stays current (R262, R401, Table 13-8). -/
def State.turnGen (s : State) (c t : Nat) : State :=
  s.onCtx c (fun x =>
    let due := x.genQueue.filter (fun g => g.2 ≤ t)
    { x with
      curGen := match due.getLast? with
        | some g => g.1
        | none => x.curGen
      genQueue := x.genQueue.filter (fun g => t < g.2) })

/-! ### The end of a request (R373, R383) -/

/-- A token record (Table 12-8). -/
def tokenRec (handle tag first count flags endCode endState : Nat) (toks : List Nat) : Bytes :=
  leBytes 4 handle ++ leBytes 4 tag ++ leBytes 4 first ++ leBytes 1 count ++ leBytes 1 flags ++ leBytes 1 endCode ++
    leBytes 1 endState ++ (upFrom 0 4).flatMap (fun i => leBytes 4 (nth 0 toks i))

/-- Counter of Table 12-20 for a terminal state. -/
def endCounter (st : Nat) : Nat :=
  if st = Rq.completed then Reg.REQ_COMPLETE_COUNT
  else if st = Rq.cancelled then Reg.REQ_CANCEL_COUNT
  else if st = Rq.expired then Reg.REQ_EXPIRE_COUNT
  else Reg.REQ_FAULT_COUNT

/-- Drop a request from every prefetch queue and every spill hold. -/
def State.dropFetch (s : State) (i : Nat) : State :=
  { s with pools := s.pools.map (fun p => { p with fetch := p.fetch.filter (fun f => f.2 != i) }) }
def State.dropHold (s : State) (i : Nat) : State :=
  { s with pools := s.pools.map (fun p => { p with holds := p.holds.filter (fun h => h.1 != i) }) }

/-- Reserve records in a completion queue. -/
def State.reserve (s : State) (cq n : Nat) : State :=
  match s.queue cq with
  | some c => s.setQueue cq (some { c with reserved := c.reserved + n })
  | none => s
def State.unreserveN (s : State) (cq n : Nat) : State :=
  match s.queue cq with
  | some c => s.setQueue cq (some { c with reserved := c.reserved - n })
  | none => s
/-- Can a completion queue reserve `n` more records? -/
def State.canReserve (s : State) (cq n : Nat) : Bool :=
  match s.queue cq with
  | some c => c.completion && (c.tail + 2 ^ 32 - c.head) % 2 ^ 32 + c.reserved + n ≤ 2 ^ c.q
  | none => false

/-- Write a record into a request's output queue, with the queue's message (R372). -/
def State.putToken (s : State) (x : ReqEnt) (rec : Bytes) : State :=
  (s.writeRecordBy 8 (hIdx x.output) rec).cqMessage (hIdx x.output)

/-- A request ends: its frames and far slots return, its census entry moves, and its final record is written from the record
reserved at admission; `byCommit` says that the last record of a commit carried final instead, and the reserved one returns. -/
def State.endReq (s : State) (i st code : Nat) (byCommit : Bool) : State :=
  match s.reqEnt i with
  | none => s
  | some x =>
    let y := { x with state := st, endCode := code, cancelPending := false, pausePending := false, spillHold := false
                      specLen := 0, expireAt := 0 }
    let s1 := ((s.returnAll x.ctx x (s.heldEntries x)).dropFetch i).dropHold i
    let s2 := s1.setReq i (some y)
    let s3 := { s2 with req := { s2.req with live := s2.req.live - 1, ended := s2.req.ended + 1 } }
    let s4 := if byCommit then s3.unreserveN (hIdx x.output) 1
      else s3.putToken x (tokenRec (s.handleOf .req i) x.userTag (x.length + 1) 0 1 code st [])
    (s4.bump reqPage (endCounter st)).raise reqPage 1

/-- Does the context run a plan? -/
def State.running (s : State) (c : Nat) : Bool :=
  match s.ctx c with
  | some x => x.run.isSome
  | none => false

/-- Is the request on the roster of a step in progress? -/
def State.rostered (s : State) (i : Nat) (x : ReqEnt) : Bool :=
  match s.ctx x.ctx with
  | some c => match c.run with
    | some r => r.inStep && r.roster.any (fun q => q.idx == i)
    | none => false
  | none => false

/-! ### REQ_ADMIT (R363 to R365) -/

/-- Table 12-4. -/
structure Admit where
  d : Bytes
  deriving DecidableEq, Repr

def Admit.f (a : Admit) (off n : Nat) : Nat := fieldB a.d off n

/-- Ranges of an admit block, and its limits (R364, R520). -/
def State.admitLimits (s : State) (c : Ctx) (a : Admit) : Nat :=
  if !s.devRange (a.f 0x00 8) (a.f 0x0C 4) || !s.devRange (a.f 0x10 8) (a.f 0x18 4) then Err.length
  else if a.f 0x0C 4 < a.f 0x08 4 * 4 || a.f 0x18 4 < 8 * c.kv.dirEntries then Err.length
  else if c.kv.groups.any (fun g => !g.ring && g.maxTokens < a.f 0x08 4) then Err.length
  else 0

/-- Checks 1 to 7 of Table 12-5. -/
def State.admitCode (s : State) (tenant c : Nat) (x : Ctx) (q : Nat) (a : Admit) : Nat :=
  let g := a.f 0x1C 4
  let named := if g = 0 then x.curGen else g
  if s.req.stopped then Err.conservation
  else if s.tripLatched then Err.notReady
  else if g ≠ 0 && s.checkHandle tenant .gen g != 0 then s.checkHandle tenant .gen g
  else if g ≠ 0 && (match look none s.gens (hIdx g) with
    | some y => y.ctx != c || y.readyAt.isNone
    | none => true) then Err.badHandle
  else if named ≠ 0 && (match look none s.gens (hIdx named) with
    | some y => y.quarantined
    | none => false) then Err.genRetired
  else if named = 0 then Err.notReady
  else if !s.canReserve (hIdx q) 1 then Err.length
  else if !s.hasFreeSlot .req then Err.length
  else 0

/-- The entry that an admit fills. -/
def admitEnt (a : Admit) (c gen q t : Nat) : ReqEnt where
  state := Rq.admitted
  priority := a.f 0x3C 1 % 8
  spillable := bitAt (a.f 0x3D 1) 0
  follow := bitAt (a.f 0x3D 1) 1
  boundStrict := bitAt (a.f 0x3D 1) 2
  cancelPending := false
  cancelLate := false
  spillHold := false
  yielded := false
  deadlineMissed := false
  pausePending := false
  specLen := 0
  endCode := 0
  rejectRun := 0
  ctx := c
  gen := gen
  length := 0
  promptLen := a.f 0x08 4
  dir := a.f 0x10 8
  ringHead := 0
  ringTail := 0
  deadline := a.f 0x20 8
  interval := a.f 0x28 4
  ttl := a.f 0x2C 4
  pauseStamp := 0
  admitStamp := t
  output := q
  userTag := a.f 0x38 4
  stopToken := a.f 0x30 4
  maxNew := a.f 0x34 4
  outCount := 0
  switchStep := 0
  promptAddr := a.f 0x00 8
  draftAddr := 0
  draftCount := 0
  expireAt := 0
  poisonFound := false
  switched := false

/-- A successful admit (R365). -/
def State.admitReq (s : State) (f : Flight) (c : Nat) (x : Ctx) (q : Nat) (a : Admit) : State :=
  let i := s.nextSlot .req
  let gen := if a.f 0x1C 4 = 0 then x.curGen else a.f 0x1C 4
  let s1 := (s.takeSlot .req f.tenant).unitWrite (a.f 0x10 8) (List.replicate (8 * x.kv.dirEntries) (0 : Byte)) (s.stepTag c)
    (producer 0 8 0) 0
  let s2 := (s1.setReq i (some (admitEnt a c gen q s.time))).reserve (hIdx q) 1
  let s3 := { s2 with req := { s2.req with free := s2.req.free - 1, live := s2.req.live + 1 } }
  (s3.bump reqPage Reg.REQ_ADMIT_COUNT).passOp f (s3.handleOf .req i)

/-- Read a block that a descriptor names; poisoned, it is an operand the context consumes (R433). -/
def State.opBlock (s : State) (f : Flight) (c : Option Nat) (a n : Nat) (k : State → Bytes → State) : State :=
  let r := s.unitRead a n
  if Flag.isPoison r.1.flags then
    let s1 := r.2.failOp f Err.poison 0
    match c with
    | some c => s1.faultCtx c Err.poison
    | none => s1
  else k r.2 r.1.data

/-- The admit block has been read: its limits, zero lengths (R349), the checks of Table 12-5. -/
def State.admitBlock (s : State) (f : Flight) (c : Nat) (x : Ctx) (q : Nat) (a : Admit) : State :=
  s.checked f (s.admitLimits x a)
    (if a.f 0x08 4 = 0 || a.f 0x34 4 = 0 then s.passOp f 0
     else
      let code := s.admitCode f.tenant c x q a
      if code = 0 then s.admitReq f c x q a
      else ((s.bump reqPage Reg.REQ_ADMIT_REFUSED_COUNT).raise reqPage 3).failOp f code 0)

def execReqAdmit (q ix : Nat) (s : State) : Host.Outcome State Fault Refusal :=
  ok (s.runFlight q ix 0x20 (fun s f =>
    let h := dHandle f.desc
    let oq := dField f.desc 0x24 4
    let code := if s.checkHandle f.tenant .ctx h ≠ 0 then s.checkHandle f.tenant .ctx h
      else if s.checkHandle f.tenant .que oq ≠ 0 then s.checkHandle f.tenant .que oq
      else if dField f.desc 0x30 8 < 64 || !s.devRange (dField f.desc 0x28 8) 64 then Err.length else 0
    s.checked f code
      (match s.ctx (hIdx h) with
       | none => s.failOp f Err.staleHandle 0
       | some x => s.opBlock f (some (hIdx h)) (dField f.desc 0x28 8) 64 (fun s d => s.admitBlock f (hIdx h) x oq (Admit.mk d)))))

/-! ### Cancel, pause, resume (R375, R376, R378) -/

/-- A pause acts on a working or resuming request at a tick. -/
def State.actPause (s : State) (i t : Nat) : State :=
  match s.reqEnt i with
  | none => s
  | some x =>
    if x.working || x.state = Rq.resuming then
      (s.setReq i (some { x with
        state := if s.resident x then Rq.paused else Rq.spilled
        pausePending := false
        pauseStamp := t
        expireAt := if x.ttl = 0 then 0 else t + x.ttl * 1000000 })).dropFetch i
    else s.setReq i (some { x with pausePending := false })

/-- A cancel acts: a live request ends; one completed at this gate gets cancel_late. -/
def State.actCancel (s : State) (i : Nat) (justDone : Bool) : State :=
  match s.reqEnt i with
  | none => s
  | some x =>
    if x.live then s.endReq i Rq.cancelled 0 false
    else if justDone && x.state = Rq.completed then
      (s.setReq i (some { x with cancelLate := true, cancelPending := false })).bump reqPage Reg.REQ_CANCEL_LATE_COUNT
    else s

/-- A descriptor waits for its gate. -/
def State.addDue (s : State) (f : Flight) (i kind : Nat) (args : List Nat) : State :=
  let s1 : State := { s with req := { s.req with due := s.req.due ++ [⟨(f.q, f.ix), i, s.time, kind, args⟩] } }
  s1.waitFlight f.q f.ix

/-- Run `g` on the request that a descriptor's handle names. -/
def State.onReqOp (s : State) (f : Flight) (g : State → Nat → ReqEnt → State) : State :=
  let h := dHandle f.desc
  s.checked f (s.checkHandle f.tenant .req h)
    (match s.reqEnt (hIdx h) with
     | some x => g s (hIdx h) x
     | none => s.failOp f Err.staleHandle 0)

def execReqCancel (q ix : Nat) (s : State) : Host.Outcome State Fault Refusal :=
  ok (s.runFlight q ix 0x21 (fun s f => s.onReqOp f (fun s i x =>
    if !x.live then s.passOp f 0
    else if x.state = Rq.paused || x.state = Rq.spilled || !s.running x.ctx then (s.actCancel i false).passOp f 0
    else (s.setReq i (some { x with cancelPending := true })).addDue f i 0 [])))

def execReqPause (q ix : Nat) (s : State) : Host.Outcome State Fault Refusal :=
  ok (s.runFlight q ix 0x22 (fun s f => s.onReqOp f (fun s i x =>
    if !(x.working || x.state = Rq.resuming) then s.passOp f 0
    else if !s.running x.ctx then (s.actPause i s.time).passOp f 0
    else (s.setReq i (some { x with pausePending := true })).addDue f i 1 [])))

/-- Queue a prefetch of a request's FAR entries on their home dies (R229). -/
def State.queueFetch (s : State) (i cls : Nat) (x : ReqEnt) : State :=
  ((upFrom 0 4).filter (fun d => (s.heldEntries x).any (fun e => e.2.2.die == d && e.2.2.state == 3))).foldl (fun s d =>
    let p := s.pool d
    if p.fetch.contains (cls, i) then s
    else s.setPool d { p with fetch := p.fetch.filter (fun e => e.2 != i) ++ [(cls, i)] }) s

def execReqResume (q ix : Nat) (s : State) : Host.Outcome State Fault Refusal :=
  ok (s.runFlight q ix 0x23 (fun s f => s.onReqOp f (fun s i x =>
    if x.state = Rq.paused then (s.setReq i (some { x with state := x.workState, expireAt := 0 })).passOp f 0
    else if x.state = Rq.spilled then
      let y := { x with state := Rq.resuming, expireAt := 0 }
      ((s.setReq i (some y)).queueFetch i 0 y).passOp f 0
    else s.passOp f 0)))

/-! ### REQ_SET, REQ_DRAFT, REQ_RELEASE, REQ_QUERY -/

/-- The entry after a REQ_SET. -/
def setFields (d : Bytes) (x : ReqEnt) : ReqEnt :=
  let m := dField d 0x24 1
  let fl := dField d 0x26 1
  let x1 := if bitAt m 0 then { x with priority := dField d 0x25 1 % 8 } else x
  let x2 := if bitAt m 1 then { x1 with deadline := dField d 0x28 8, interval := dField d 0x30 4 } else x1
  let x3 := if bitAt m 2 then { x2 with ttl := dField d 0x34 4 } else x2
  if bitAt m 3 then { x3 with spillable := bitAt fl 0, follow := bitAt fl 1, boundStrict := bitAt fl 2 } else x3

def execReqSet (q ix : Nat) (s : State) : Host.Outcome State Fault Refusal :=
  ok (s.runFlight q ix 0x24 (fun s f => s.onReqOp f (fun s i x => (s.setReq i (some (setFields f.desc x))).passOp f 0)))

/-- Post drafts when the base length is the committed length: the entry, and the result. -/
def postDrafts (x : ReqEnt) (addr count base : Nat) : ReqEnt × Nat :=
  if x.live && x.length == base then ({ x with draftAddr := addr, draftCount := count }, count) else (x, 0)

def execReqDraft (q ix : Nat) (s : State) : Host.Outcome State Fault Refusal :=
  ok (s.runFlight q ix 0x25 (fun s f => s.onReqOp f (fun s i x =>
    let n := dField f.desc 0x24 1
    let addr := dField f.desc 0x28 8
    let base := dField f.desc 0x38 4
    if n = 0 then s.passOp f 0
    else s.checked f (if dField f.desc 0x30 8 < n * 4 || !s.devRange addr (n * 4) then Err.length else 0)
      (if s.rostered i x then s.addDue f i 2 [addr, n, base]
       else
        let r := postDrafts x addr n base
        (s.setReq i (some r.1)).passOp f r.2))))

/-- An entry returns to FREE. -/
def State.freeReq (s : State) (i : Nat) : State :=
  let s1 := (s.setReq i none).dropSlot .req i
  { s1 with req := { s1.req with ended := s1.req.ended - 1, free := s1.req.free + 1 } }

def execReqRelease (q ix : Nat) (s : State) : Host.Outcome State Fault Refusal :=
  ok (s.runFlight q ix 0x26 (fun s f => s.onReqOp f (fun s i x =>
    if x.live then s.failOp f Err.notReady 0 else (s.freeReq i).passOp f 0)))

/-- Does an entry belong to a tenant's context? -/
def State.reqTenant (s : State) (x : ReqEnt) (t : Nat) : Bool :=
  match s.ctx x.ctx with
  | some c => c.tenant == t
  | none => false

/-- What REQ_QUERY copies of an entry for a tenant. -/
def State.queryBytes (s : State) (t i : Nat) : Bytes :=
  match s.reqEnt i with
  | some x => if s.reqTenant x t then s.entryBytes i else List.replicate 128 (0 : Byte)
  | none => List.replicate 128 (0 : Byte)

def execReqQuery (q ix : Nat) (s : State) : Host.Outcome State Fault Refusal :=
  ok (s.runFlight q ix 0x27 (fun s f =>
    let first := dField f.desc 0x20 4
    let n := dField f.desc 0x24 4
    let dst := dField f.desc 0x28 8
    if n = 0 then s.passOp f 0
    else s.checked f (if 65536 < first + n || dField f.desc 0x30 8 < n * 128 || !s.devRange dst (n * 128) then Err.length
      else 0)
      ((s.unitWrite dst ((upFrom first n).flatMap (fun i => s.queryBytes f.tenant i)) 0 (producer f.home 8 0) 0).passOp f 0)))

/-! ### Expiry, census, and the entry window -/

/-- A paused request expires in the first tick after expire_at (R379). -/
def execRequestExpiry (req t : Nat) (s : State) : Host.Outcome State Fault Refusal :=
  ok (s.whenUp (fun s => match s.reqEnt req with
    | some x =>
      if (x.state = Rq.paused || x.state = Rq.spilled) && x.expireAt != 0 && x.expireAt < t then
        (s.at t).endReq req Rq.expired 0 false
      else s
    | none => s))

/-- Entries that satisfy a test. -/
def State.countReq (s : State) (p : ReqEnt → Bool) : Nat :=
  (s.req.entries.filter (fun e => match e.2 with
    | some x => p x
    | none => false)).length

/-- The audit of R386: rows 3 and 4 of Table 18-2 that do not hold. -/
def State.reqRows (s : State) : List Nat :=
  (if s.countReq (fun x => x.live && x.state != Rq.unread) == s.req.live && s.countReq (fun x => !x.live) == s.req.ended &&
      s.req.live + s.req.ended + s.req.free == 65536 then [] else [3]) ++
    (if s.req.committed == s.req.delivered then [] else [4])

/-- The REQ page latches a failed audit. -/
def State.reqFault (s : State) : State :=
  let s1 : State := { s with req := { s.req with censusFail := true } }
  (s1.latchErr reqPage Err.conservation none 0 0).raise reqPage 2

def State.reqAudit (s : State) : State := if s.reqRows.isEmpty then s else s.reqFault.auditFailed s.reqRows

def execReqCensus (s : State) : Host.Outcome State Fault Refusal := ok (s.hostPage reqPage (fun s => s.reqAudit))

/-- Reading word 0 of REQ_ENTRY_DATA captures the 32 words of the selected entry (Table 12-14). -/
def State.captureEntry (s : State) : State :=
  let b := s.entryBytes (s.fld reqPage Reg.REQ_ENTRY_SEL 15 0)
  { s with req := { s.req with captured := (upFrom 0 32).map (fun i => fieldB b (4 * i) 4) } }

def execReqEntryRead (s : State) : Host.Outcome State Fault Refusal :=
  ok (s.whenUp (fun s =>
    let s1 := s.captureEntry
    { s1 with out := { s1.out with host := .data (nth 0 s1.req.captured 0) } }))

end Sys2Proof.Machine
end

