-- ==== Sys2Proof/Machine/Roster.lean ====
section
/-!
DEFINITION. The roster of a step (R200, R209, R223, R327, R367, R368, R380, R381, Tables 07-6 and 12-6): attention windows and
costs, the order of the candidates, the checks, the bucket that runs, the task lists and the generation of the next step.
-/

namespace Sys2Proof.Machine

/-! ### Segments and windows of a bucket (R200, R208, R326) -/

def emptyBucket : Bucket := ⟨0, 0, 0, 0⟩
def Sched.bucket (sc : Sched) (b : Nat) : Bucket := nth emptyBucket sc.buckets b
/-- No wide segment. -/
abbrev noWide : Nat := 0xFFFFFFFF
/-- Layer-table entry of a bucket and layer: the table is bucket-major. -/
def Sched.layerEnt (sc : Sched) (n b layer : Nat) : LayerEnt := nth ⟨0, noWide, 0⟩ sc.layers (b * n + layer)
/-- Segment that a layer runs in, for an escalation set. -/
def LayerEnt.segment (e : LayerEnt) (escalated : Bool) : Nat := if escalated && e.wide != noWide then e.wide else e.single

/-- Segments of a step of bucket `b` (R326). -/
def Sched.stepOf (sc : Sched) (n : Nat) (esc : List Nat) (b : Nat) : List Nat :=
  (sc.bucket b).head :: ((upFrom 0 n).map (fun l => (sc.layerEnt n b l).segment (esc.contains l)) ++ [(sc.bucket b).tail])

/-- One attention window of a step. -/
structure Win where
  die : Nat
  unit : Nat
  layer : Nat
  mode : Nat
  share : Nat
  slots : Nat
  deriving DecidableEq, Repr

/-- The units that streams of a kind drive in a list of segments, as (die, unit), ascending. -/
def Sched.unitsOf (sc : Sched) (kind : Nat) (segs : List Nat) : List (Nat × Nat) :=
  (segs.foldl (fun acc i => (sc.seg i).streams.foldl (fun acc t =>
    if t.kind = kind then insertAsc (256 * t.die + t.unit) acc else acc) acc) []).map (fun k => (k / 256, k % 256))

/-- The windows among an engine's words: each WINDOW_OPEN with the WINDOW_CLOSE after it. -/
def winsOf (die unit : Nat) : Option (Nat × Nat) → List (Nat × Nat) → List Win
  | _, [] => []
  | o, (slot, w) :: ws =>
    if bits w 63 60 = 1 then winsOf die unit (some (slot, w)) ws
    else if bits w 63 60 = 2 then
      match o with
      | some (s0, w0) => ⟨die, unit, bits w0 59 50, bits w0 49 48, bits w0 47 32, slot - s0⟩ :: winsOf die unit none ws
      | none => winsOf die unit none ws
    else winsOf die unit o ws

/-- All windows of a step's segments. -/
def Sched.windows (sc : Sched) (segs : List Nat) : List Win :=
  (sc.unitsOf 4 segs).flatMap (fun u => winsOf u.1 u.2 none (sc.wordsFrom 4 u.1 u.2 0 0 segs))

/-- Candidate engines of a layer on its group's home die, ascending (R200). -/
def engines (ws : List Win) (home layer : Nat) : List Nat :=
  ws.foldl (fun acc w => if w.die = home && w.layer = layer then insertAsc w.unit acc else acc) []
/-- The engine of KV head `h`. -/
def engineOf (es : List Nat) (h : Nat) : Nat := nth 0 es (h % es.length)
/-- The windows of an engine for a layer, each with its place in the list: one forward, or a forward and a backward one. -/
def winsFor (ws : List Win) (die unit layer : Nat) : List (Win × Nat) :=
  ws.zipIdx.filter (fun w => w.1.die == die && w.1.unit == unit && w.1.layer == layer)

/-! ### The cost of a task (R209, R252) -/

/-- Pages of a group that a request's T1 blocks lie on. -/
def KvGroup.t1Pages (g : KvGroup) (W len : Nat) : List Nat :=
  if len = 0 then []
  else let a := g.lo W len / g.tokens; upFrom a ((len - 1) / g.tokens + 1 - a)

/-- Intake of an engine in half tokens per slot. -/
def KvGroup.intake2 (g : KvGroup) (backward : Bool) : Nat := (if g.dim ≤ 128 then 8 else 4) / (if backward then 2 else 1)

/-- Attention cost of one task of `n` positions at committed length `len`. -/
def KvGroup.cost (g : KvGroup) (W len n qpk : Nat) (w : Win) : Nat :=
  let back := w.mode == 2
  let k := if back then 8 else 4
  let r := g.intake2 back
  let blk := max (ceilDiv (2 * g.tokens) r) (ceilDiv (g.tokens * g.entryBytes) (max 1 w.share)) + k
  ceilDiv (n * qpk) 32 * ((g.t1Pages W len).length * blk + (ceilDiv (2 * n) r + 4))

/-- A charge on window `win` of a step: die, engine, slots. -/
structure Charge where
  die : Nat
  unit : Nat
  win : Nat
  slots : Nat
  deriving DecidableEq, Repr

/-- Does attention of the layer run on the engines for a step of this request (R199)? -/
def AttEnt.onEngines (a : AttEnt) (prefill : Bool) : Bool := a.placement = 0 || !prefill

/-- The charges of a request's tasks: a task of the forward pass on the forward window, one of the backward pass on the backward
window (R209, R252). -/
def chargesOf (img : PlanImg) (kv : KvRec) (ws : List Win) (x : ReqEnt) (n : Nat) : List Charge :=
  (img.att.filter (fun a => a.onEngines (decide (x.length < x.promptLen)))).flatMap (fun a =>
    let g := kv.group a.group
    let es := engines ws g.home a.layer
    if es.isEmpty then []
    else (upFrom 0 g.heads).flatMap (fun h =>
      let e := engineOf es h
      (winsFor ws g.home e a.layer).map (fun w => ⟨g.home, e, w.2, g.cost kv.window x.length n a.qPerKv w.1⟩)))

def sameWin (a b : Charge) : Bool := a.win == b.win
/-- Charges whose windows are overfull under a list of charges. -/
def overfull (ws : List Win) (cs : List Charge) : List Charge :=
  cs.filter (fun c => ((ws[c.win]?).map (fun w => w.slots)).getD 0 <
    sumL ((cs.filter (sameWin c)).map (fun d => d.slots)))

/-! ### Candidates (R367) -/

/-- Lexicographic order. -/
def lexLt : List Nat → List Nat → Bool
  | [], [] => false
  | [], _ :: _ => true
  | _ :: _, [] => false
  | a :: as, b :: bs => a < b || (a == b && lexLt as bs)

def insertBy {α : Type} (key : α → List Nat) (x : α) : List α → List α
  | [] => [x]
  | y :: ys => if lexLt (key x) (key y) then x :: y :: ys else y :: insertBy key x ys
def sortBy {α : Type} (key : α → List Nat) : List α → List α
  | [] => []
  | x :: xs => insertBy key x (sortBy key xs)

def ReqEnt.urgent (x : ReqEnt) (stamp window : Nat) : Bool := x.deadline != 0 && x.deadline ≤ stamp + window

/-- Place of a candidate in the order of R367. -/
def candKey (stamp window : Nat) (e : Nat × ReqEnt) : List Nat :=
  let dl := if e.2.deadline = 0 then 2 ^ 64 else e.2.deadline
  if e.2.urgent stamp window then [0, dl, e.1] else [1, 7 - e.2.priority, dl, e.2.admitStamp, e.1]

/-- The candidates of a context, in order. -/
def State.candidates (s : State) (c stamp : Nat) : List (Nat × ReqEnt) :=
  sortBy (candKey stamp (look 0 s.req.urgent c))
    ((s.reqsOf c).filter (fun e => e.2.working || e.2.state == Rq.resuming))

/-- REQ_CTX_CFG fields of a context (Table 12-16). -/
def State.reqCfg (s : State) (c : Nat) : Nat := look reqCfgReset s.req.cfg c
def State.rejectMax (s : State) (c : Nat) : Nat := max 1 (bits (s.reqCfg c) 19 16)
def State.genSkipMax (s : State) (c : Nat) : Nat := max 1 (bits (s.reqCfg c) 11 8)
def State.urgentBucket (s : State) (c : Nat) : Nat := bits (s.reqCfg c) 3 0

/-! ### The roster (R368, Tables 12-6 and 07-6) -/

/-- What a roster is formed under. -/
structure RosterEnv where
  c : Nat
  img : PlanImg
  kv : KvRec
  lim : Bucket
  wins : List Win
  capped : Bool
  stamp : Nat
  window : Nat
  gen : Nat
  cur : Nat
  steps : Nat
  deriving DecidableEq, Repr

/-- A roster as it forms. -/
structure Form where
  s : State
  ros : List Rostered
  vec : Nat
  charges : List Charge
  deriving DecidableEq, Repr

def Form.slip (f : Form) (p : Page) (off : Nat) : Form := { f with s := f.s.bump p off }

/-- Does a plan prefill on arrays? -/
def PlanImg.arrayPrefill (g : PlanImg) : Bool := g.att.any (fun a => a.placement == 1)
/-- n_max of R368. -/
def KvRec.nMax (k : KvRec) : Nat := if k.ringCap = 0 then 4096 else min 4096 (k.ringCap - k.window + 1)

/-- The drafts and the vector count of a candidate under the vectors left. -/
def vectorsOf (e : RosterEnv) (x : ReqEnt) (left : Nat) : Nat × Nat :=
  if x.length < x.promptLen then (0, min (min (x.promptLen - x.length) left) e.kv.nMax)
  else
    let d := min (min x.draftCount e.kv.specMax) (left - 1)
    (d, 1 + d)

/-- Check 2 of Table 12-6. -/
def Form.isFull (f : Form) (e : RosterEnv) (x : ReqEnt) (left n : Nat) : Bool :=
  let prefill := decide (x.length < x.promptLen)
  let nMin := if prefill && e.img.arrayPrefill then min (x.promptLen - x.length) e.kv.nMax else 1
  e.lim.requests ≤ f.ros.length || left < nMin || n == 0 ||
    (prefill && e.img.arrayPrefill && f.ros.any (fun r => !r.decode))

/-- Condition 3 of Table 07-1 fails for some layer that prefills on arrays. -/
def tooLong (e : RosterEnv) (x : ReqEnt) (n : Nat) : Bool :=
  decide (x.length < x.promptLen) && e.img.att.any (fun a => a.placement == 1 && 512 * a.tMax < x.length + n)

/-- Output records that a step reserves (check 3 of Table 12-6). -/
def recordsOf (x : ReqEnt) (n : Nat) : Nat :=
  let d := if x.length < x.promptLen then (if x.promptLen ≤ x.length + n then 1 else 0) else n
  ceilDiv d 4

/-- Is a codeword of a request's directory unusable (Table 14-11)? -/
def State.dirBad (s : State) (x : ReqEnt) : Bool := (cwsOf x.dir (8 * (s.kvOf x).dirEntries)).any (fun c => s.mem.cwBad c)

/-- Frames of a request by the allocator's own record return (R434, Table 14-11). -/
def State.returnHolders (s : State) (i : Nat) : State :=
  (upFrom 0 s.dies).foldl (fun s die => ((s.pool die).held.filter (fun e => match e.2 with
    | some h => h.req == i && h.kind == 0
    | none => false)).foldl (fun s e => s.freeFrame die e.1) s) s

/-- Home die of the lowest group that holds an entry not resident. -/
def State.slipDie (s : State) (x : ReqEnt) : Nat :=
  let k := s.kvOf x
  ((s.heldEntries x).find? (fun e => e.2.2.state != 1)).elim 0 (fun e => (k.group e.1).home)
/-- The die whose spill engine holds a request. -/
def State.holdDie (s : State) (i : Nat) : Nat :=
  ((upFrom 0 4).find? (fun d => (s.pool d).holds.any (fun h => h.1 == i))).getD 0

/-- Lowest of a list of charges, by die and engine. -/
def lowestDie (cs : List Charge) : Nat :=
  (cs.foldl (fun acc c => insertAsc (16 * c.die + c.unit) acc) []).headD 0 / 16

/-- Checks 2 to 6 of Table 07-6 for a request whose entries and tokens hold no poison. -/
def Form.place (f : Form) (e : RosterEnv) (i : Nat) (x : ReqEnt) (drafts n recs : Nat) : Form :=
  let s := f.s
  let cs := f.charges ++ chargesOf e.img e.kv e.wins x n
  let need := s.needFrames x n
  if !s.resident x || x.spillHold then
    let d := if x.spillHold then s.holdDie i else s.slipDie x
    let cls := if x.spillHold then 2 else if x.state = Rq.resuming then 0 else 1
    { f with s := (s.bump (kvpPage d) Reg.KVP_SLIP_RESIDENT_COUNT).queueFetch i cls x }
  else if e.kv.groups.any (fun g => !g.ring && g.maxTokens < x.length + n) then
    { f with s := s.endReq i Rq.completed Err.length false }
  else if !(overfull e.wins cs).isEmpty then
    f.slip (kvpPage (lowestDie (overfull e.wins cs))) Reg.KVP_SLIP_BUDGET_COUNT
  else if !(s.shortDies need).isEmpty then f.slip (kvpPage ((s.shortDies need).headD 0)) Reg.KVP_SLIP_POOL_COUNT
  else
    let s1 := (s.setReq i (some { x with yielded := false, specLen := drafts })).giveFrames i x need
    let r : Rostered := ⟨i, n, drafts, decide (x.promptLen ≤ x.length), recs, need.map (fun g => (g.2.1, max g.2.2 x.length)), []⟩
    { s := if recs = 0 then s1 else s1.reserve (hIdx x.output) recs
      ros := f.ros ++ [r]
      vec := f.vec + n
      charges := cs }

/-- Check 1 of Table 07-6: poison found before use ends the request. -/
def Form.poisonOr (f : Form) (e : RosterEnv) (i : Nat) (x : ReqEnt) (drafts n recs : Nat) : Form :=
  let r := if x.length < x.promptLen then f.s.unitRead (x.promptAddr + 4 * x.length) (4 * n)
    else f.s.unitRead x.draftAddr (4 * drafts)
  let bad := f.s.dirBad x
  if bad || x.poisonFound || Flag.isPoison r.1.flags || (f.s.heldEntries x).any (fun h => h.2.2.poison) then
    let s1 := r.2.endReq i Rq.faulted Err.poison false
    { f with s := if bad then s1.returnHolders i else s1 }
  else ({ f with s := r.2 } : Form).place e i x drafts n recs

/-- A follow request switches at the gate that opens a step on the current generation (R381). -/
def switchGen (e : RosterEnv) (x : ReqEnt) : ReqEnt :=
  if x.follow && e.cur != 0 && x.gen != e.cur && e.gen == e.cur then
    { x with gen := e.cur, switchStep := e.steps % 2 ^ 32, switched := true }
  else x

/-- One candidate through the checks of Table 12-6. -/
def Form.take (f : Form) (e : RosterEnv) (i : Nat) : Form :=
  match f.s.reqEnt i with
  | none => f
  | some x0 =>
    let x := switchGen e x0
    let f1 := { f with s := f.s.setReq i (some x) }
    let left := e.lim.vectors - f.vec
    let v := vectorsOf e x left
    if (if x.follow then e.cur else x.gen) ≠ e.gen then f1.slip reqPage Reg.REQ_SLIP_GEN_COUNT
    else if f1.isFull e x left v.2 then
      if e.capped && !x.urgent e.stamp e.window then
        { f1 with s := (f1.s.setReq i (some { x with yielded := true })).bump reqPage Reg.REQ_YIELD_COUNT }
      else f1.slip reqPage Reg.REQ_SLIP_CAP_COUNT
    else if tooLong e x v.2 then f1
    else if recordsOf x v.2 ≠ 0 && !f1.s.canReserve (hIdx x.output) (recordsOf x v.2) then
      f1.slip reqPage Reg.REQ_SLIP_OUTPUT_COUNT
    else f1.poisonOr e i x v.1 v.2 (recordsOf x v.2)

def Form.takeAll (f : Form) (e : RosterEnv) : List (Nat × ReqEnt) → Form
  | [] => f
  | c :: cs => (f.take e c.1).takeAll e cs

/-! ### The generation of the following step (R380) -/

/-- When a generation became ready: the older of two has the smaller value. -/
def State.genAge (s : State) (h : Nat) : Nat :=
  match look none s.gens (hIdx h) with
  | some g => g.readyAt.getD 0
  | none => 0

/-- Generations of the candidates, in their order, each once. -/
def genList : List Nat → List Nat
  | [] => []
  | g :: gs => g :: (genList gs).filter (fun h => h != g)

/-- The generation with the largest waited count among those at or above the limit, the older first. -/
def State.longWaited (s : State) (w : List (Nat × Nat)) (skip : Nat) (gs : List Nat) : Option Nat :=
  let cnt := fun g => ((w.find? (fun e => e.1 == g)).map (fun e => e.2)).getD 0
  (sortBy (fun g => [2 ^ 64 - cnt g, s.genAge g, g]) (gs.filter (fun g => skip ≤ cnt g))).head?

/-- Fix the generation of the following step. Without a candidate it is the current one. -/
def State.fixGen (s : State) (c cur : Nat) (cands : List (Nat × ReqEnt)) : State :=
  match s.ctx c with
  | none => s
  | some x =>
    let gs := genList (cands.map (fun e => if e.2.follow then cur else e.2.gen))
    let g := (s.longWaited x.waited (s.genSkipMax c) gs).getD (gs.headD cur)
    let cnt := fun h => ((x.waited.find? (fun e => e.1 == h)).map (fun e => e.2)).getD 0
    s.setCtx c (some { x with
      waited := (gs.filter (fun h => h != g)).map (fun h => (h, cnt h + 1))
      run := x.run.map (fun r => { r with nextGen := g }) })

/-! ### The bucket and the task lists (R207, R327) -/

/-- Do a roster's counts and costs fit a bucket? -/
def State.bucketFits (s : State) (img : PlanImg) (sc : Sched) (kv : KvRec) (esc : List Nat) (ros : List Rostered) (b : Nat) :
    Bool :=
  let ws := sc.windows (sc.stepOf img.layerCount esc b)
  let cs := ros.flatMap (fun r => match s.reqEnt r.idx with
    | some x => chargesOf img kv ws x r.n
    | none => [])
  decide (ros.length ≤ (sc.bucket b).requests) && decide (sumL (ros.map (fun r => r.n)) ≤ (sc.bucket b).vectors) &&
    (overfull ws cs).isEmpty

/-- The first bucket that fits, else the one that set the limit. -/
def State.chooseBucket (s : State) (img : PlanImg) (sc : Sched) (kv : KvRec) (esc : List Nat) (ros : List Rostered)
    (limit : Nat) : Nat :=
  ((upFrom 0 sc.buckets.length).find? (fun b => s.bucketFits img sc kv esc ros b)).getD limit

/-- A task of a rostered request for one KV head, with the frame addresses of its blocks. -/
def State.newTask (s : State) (kv : KvRec) (g : KvGroup) (x : ReqEnt) (r : Rostered) (h : Nat) : AttTask where
  req := r.idx
  head := h
  pos := x.length
  n := r.n
  lo := g.lo kv.window x.length
  blocks := (g.t1Pages kv.window x.length).map (fun p =>
    let d := s.dirEnt x (g.entryOf kv.window p)
    (s.frameAddr d.die d.frame, p))
  q := []
  dO := []
  lse := []
  dD := []
  fresh := []
  flags := 0
  out := []
  outLse := []
  dkv := []

/-- The tasks of a layer that fall to an engine, in roster order. -/
def State.tasksOf (s : State) (kv : KvRec) (ws : List Win) (ros : List Rostered) (a : AttEnt) (e : Nat) : List AttTask :=
  let g := kv.group a.group
  let es := engines ws g.home a.layer
  ros.flatMap (fun r => match s.reqEnt r.idx with
    | some x =>
      if a.onEngines (!r.decode) then
        ((upFrom 0 g.heads).filter (fun h => engineOf es h == e)).map (fun h => s.newTask kv g x r h)
      else []
    | none => [])

/-- Give every engine of a step its task lists. -/
def State.giveTasks (s : State) (img : PlanImg) (kv : KvRec) (ws : List Win) (ros : List Rostered) :
    List (Nat × Nat) → State
  | [] => s
  | u :: us =>
    let ls := (img.att.filter (fun a => (kv.group a.group).home == u.1 && ws.any (fun w =>
      w.die == u.1 && w.unit == u.2 && w.layer == a.layer))).map (fun a => (a.layer, s.tasksOf kv ws ros a u.2))
    (s.setAtt u.1 u.2 { s.att u.1 u.2 with lists := ls }).giveTasks img kv ws ros us

end Sys2Proof.Machine
end

