-- ==== Sys2Proof/Machine/Schedule.lean ====
section
/-!
DEFINITION. What a schedule uses: the knots it touches (R312, Table 10-7), the shared links and residues of its router words
(R306 to R309), and its load on the DRAM schedule (check 11 of Table 11-8).
-/

namespace Sys2Proof.Machine

/-! ### Router words (Table 10-3) -/

/-- Source code that a router word gives output `o` (0 N, 1 E, 2 S, 3 W, 4 L, 5 X). -/
def outSel (w o : Nat) : Nat := bits w (4 * o + 3) (4 * o)
/-- Outputs that a router word drives. -/
def outsOf (w : Nat) : List Nat := (upFrom 0 6).filter (fun o => outSel w o != 0)

/-- The die whose bridge a column-0 router faces. -/
def State.prevDie (die : Nat) : Nat := (die + 3) % 4

/-- Does driving an output of a bent's router use a dead link or a bridge channel that is gone? -/
def State.outKnot (s : State) (die bent o : Nat) : Bool :=
  let k := s.knotDie die
  if o = 0 then 16 ≤ bent && k.links.contains (2 * (bent - 16) + 1)
  else if o = 1 then k.links.contains (2 * bent) || (bent % 16 == 15 && k.channels ≤ bent / 16)
  else if o = 2 then k.links.contains (2 * bent + 1)
  else if o = 3 then
    (if bent % 16 = 0 then (s.knotDie (State.prevDie die)).channels ≤ bent / 16 else k.links.contains (2 * (bent - 1)))
  else false

/-- Does a router word touch a knot? -/
def State.routeKnot (s : State) (die bent w : Nat) : Bool :=
  (w != 0 && (s.knotDie die).routers.contains bent) || (outsOf w).any (fun o => s.outKnot die bent o)

/-! ### Knots that a schedule touches (R312) -/

def State.streamKnot (s : State) (t : Stream) : Bool :=
  if t.kind = 0 then t.words.any (fun w => s.routeKnot t.die t.unit w.2)
  else if t.kind = 1 then
    s.arrIsKnot t.die t.unit t.sub || t.words.any (fun w => bitAt w.2 61 && s.arrIsKnot t.die t.unit (t.sub ^^^ 1))
  else if t.kind = 2 || t.kind = 3 then s.bentIsKnot t.die t.unit
  else if t.kind = 4 then s.attIsKnot t.die t.unit
  else if t.kind = 5 then s.gradIsKnot t.die t.unit
  else if t.kind = 6 then t.words.any (fun w => s.arrIsKnot t.die (bits w.2 45 39) (bits w.2 47 46))
  else 16 ≤ t.unit && (s.knotDie t.die).links.contains (2 * (112 + (t.unit - 16)) + 1)

def State.swapKnot (s : State) (w : SwapRec) : Bool :=
  if w.kind = 0 then (upFrom 0 4).any (fun a => bitAt w.arrays a && s.arrIsKnot w.die w.unit a)
  else s.gradIsKnot w.die w.unit

/-- Does a schedule touch a knot under the map in force? -/
def State.touchesKnot (s : State) (sc : Sched) : Bool :=
  sc.segs.any (fun g => g.streams.any (fun t => s.streamKnot t)) || sc.swaps.any (fun w => s.swapKnot w)

/-- Table 10-7: alternates keyed to the version in force, the schedule in use, any other alternate. -/
def State.chooseSched (s : State) (g : PlanImg) (inUse : Nat) : Option Nat :=
  let alts := upFrom 1 g.altCount
  ((alts.filter (fun i => nth 0 g.keys i == s.fab.knots.version)) ++ [inUse] ++ alts).find? (fun i =>
    !s.touchesKnot (g.sched i))

/-! ### Shared links (R306 to R309) -/

/-- The bent at the far end of a mesh link, when the link stays on the die's grid. -/
def farBent (bent o : Nat) : Option Nat :=
  if o = 0 then (if 16 ≤ bent then some (bent - 16) else none)
  else if o = 1 then (if bent % 16 < 15 then some (bent + 1) else none)
  else if o = 2 then (if bent < 112 then some (bent + 16) else none)
  else if o = 3 then (if bent % 16 = 0 then none else some (bent - 1))
  else some bent

/-- Is the link behind an output private to a context (R306)? -/
def State.linkPrivate (s : State) (c die bent o : Nat) : Bool :=
  match farBent bent o with
  | some b => s.owner die bent == some c && s.owner die b == some c
  | none => false

/-- A use of a shared link: its number, the sending die, the residue, and whether it is a bridge channel. -/
structure LinkUse where
  link : Nat
  die : Nat
  residue : Nat
  bridge : Bool
  deriving DecidableEq, Repr

def isBridge (bent o : Nat) : Bool := (o == 1 && bent % 16 == 15) || (o == 3 && bent % 16 == 0)

/-- Shared links that a stream uses. -/
def State.streamLinks (s : State) (c : Nat) (t : Stream) : List LinkUse :=
  if t.kind = 0 then
    t.words.flatMap (fun w => ((outsOf w.2).filter (fun o => o < 4 && !s.linkPrivate c t.die t.unit o)).map (fun o =>
      ⟨bentKey t.die t.unit * 4 + o, t.die, w.1 % 64, isBridge t.unit o⟩))
  else if t.kind = 7 then
    (t.words.filter (fun w => bits w.2 63 60 == 1)).map (fun w => ⟨0x10000 + 32 * t.die + t.unit, t.die, w.1 % 64, false⟩)
  else []

def State.schedLinks (s : State) (c : Nat) (sc : Sched) : List LinkUse :=
  sc.segs.flatMap (fun g => g.streams.flatMap (fun t => s.streamLinks c t))

/-- Share of a tenant on a die, and the ring share (Tables 10-14 and 10-16). -/
def State.share (s : State) (die t : Nat) : Nat := s.rd64 (diePage .fab die) (Reg.FAB_SHARE_T + 8 * t)
def State.ringShare (s : State) (die : Nat) : Nat := s.rd64 (diePage .fab die) Reg.FAB_RING_SHARE

/-- A use of a shared link that R309 refuses. -/
def State.shareBreach (s : State) (tenant c : Nat) (u : LinkUse) : Bool :=
  !bitAt (s.share u.die tenant) u.residue || (u.bridge && bitAt (s.ringShare u.die) u.residue) ||
    s.plans.any (fun e => match e.2 with
      | some p => p.ctx != c && p.links.contains (u.link, u.residue)
      | none => false)

/-- Residues used on shared links of a die, as a mask. -/
def maskOn (us : List LinkUse) (die : Nat) : Nat :=
  us.foldl (fun m u => if u.die = die && !bitAt m u.residue then m + 2 ^ u.residue else m) 0

/-- Residues that loaded plans of a tenant use on a die's shared links (Table 10-17). -/
def State.shareUsed (s : State) (die t : Nat) : Nat :=
  s.plans.foldl (fun m e => match e.2 with
    | some p => match s.ctx p.ctx with
      | some x => if x.tenant = t then
          p.shares.foldl (fun m d => if d.1 = die then m ||| d.2 else m) m else m
      | none => m
    | none => m) 0

end Sys2Proof.Machine
end

