-- ==== Sys2Proof/Machine/Gates.lean ====
section
/-!
DEFINITION. Gates (R329, R330, R334 to R339, Table 11-9) and what they do to requests (R369 to R376, R382, Table 12-7): arrival,
release, deadline, resumption, the commit and the abandonment of a step, and the end of a plan run.
-/

namespace Sys2Proof.Machine

abbrev leadPage (n : Nat) : Page := diePage .plan n

/-! ### The conditions of row 5 -/

def Live.terms (l : Live) (g : GateRec) : List (Nat × Nat) := g.terms.map (fun t => nth (0, 0) l.p.binds t.1)
/-- A term holds when its object's value is at least the target (R330, R354). -/
def State.termHolds (s : State) (b : Nat × Nat) : Bool := s.checkOwn .sync b.1 == 0 && b.2 ≤ look 0 s.syncs (hIdx b.1)
/-- A term whose object has been destroyed (R355). -/
def State.termGone (s : State) (b : Nat × Nat) : Bool := s.checkOwn .sync b.1 != 0

/-- Has the term held since the plan came to the gate (R352), or does it hold now? -/
def State.termMet (s : State) (l : Live) (b : Nat × Nat) : Bool := l.r.met.contains b || s.termHolds b
/-- The gate's terms that hold now and have not held before. -/
def State.newlyMet (s : State) (l : Live) : List (Nat × Nat) :=
  (l.gateRecs.flatMap (fun g => l.terms g)).filter (fun b => !l.r.met.contains b && s.termHolds b)
/-- The terms that hold now stay satisfied (R352). -/
def State.noteTerms (s : State) (l : Live) : State := s.onRun l.c (fun r => { r with met := r.met ++ s.newlyMet l })

/-- A plane swap holds once its load is complete and accepted, or it has been made already. -/
def State.planeHolds (s : State) (l : Live) (w : SwapRec × Nat) : Bool :=
  l.r.swapped.contains (arrKey w.1.die w.1.unit w.2) || s.swapState w.1.die w.1.unit w.2 w.1.tag == .accepted
def State.bankHolds (s : State) (l : Live) (w : SwapRec) : Bool := s.swapReady l w.die w.unit l.slot

/-- No recalibration of a bent of the context runs, and none waits that a trigger up to `t` asks for (R285). -/
def State.recalsDone (s : State) (c t : Nat) : Bool :=
  (s.bentsOf c).all (fun b =>
    let k := look CalBent.reset s.cals b
    k.running.isNone && !(k.trigger != 0 && k.tick ≤ t))

/-- The KV writer has written every entry of the step (R220). -/
def State.entriesWritten (s : State) (l : Live) : Bool :=
  l.r.roster.all (fun r => match s.reqEnt r.idx with
    | some x => l.p.img.att.all (fun a => (upFrom x.length r.n).all (fun p => r.written.contains (a.layer, p)))
    | none => true)

/-- Is the plan at the gate that opens its update phase? -/
def Live.atUpdate (l : Live) : Bool := l.p.img.optimiser && l.r.inStep && !l.r.boundary && l.slot == l.updateSlot

/-- The phase conditions of an optimiser plan: its step opens once no tile waits for a fold (R254), and its update gate once no
seal reads the working set (R260). -/
def State.phaseHolds (s : State) (l : Live) : Bool :=
  !l.p.img.optimiser ||
    (if l.r.boundary then !s.folds.any (fun f => f.queued && f.ctx == l.c) else !l.atUpdate || l.x.sealOp.isNone)

/-- The conditions of one gate record. -/
def State.recHolds (s : State) (l : Live) (g : GateRec) : Bool :=
  (l.terms g).all (fun b => s.termMet l b) && (g.kind != 0 || s.entriesWritten l) && s.phaseHolds l

/-- All conditions of the plan's gate at a release stamp. -/
def State.gateHolds (s : State) (l : Live) (t : Nat) : Bool :=
  l.gateRecs.all (fun g => s.recHolds l g) && l.planeSwaps.all (fun w => s.planeHolds l w) &&
    l.bankSwaps.all (fun w => s.bankHolds l w) && s.recalsDone l.c t && s.phaseHolds l &&
    (!(l.r.boundary && l.r.inStep) || s.entriesWritten l)

/-- What PLAN_CTX_STATE.waiting_on shows (Table 11-16). -/
def State.waitingOn (s : State) (l : Live) : Nat :=
  b2n (l.gateRecs.any (fun g => (l.terms g).any (fun b => !s.termMet l b))) +
    2 * b2n (l.planeSwaps.any (fun w => !s.planeHolds l w)) + 4 * b2n (l.bankSwaps.any (fun w => !s.bankHolds l w)) +
    8 * b2n (!s.recalsDone l.c s.time)

/-- Deadlines of the gate's records: none where a record has no deadline (R336, R285). -/
def Live.deadlines (l : Live) : List (Option Nat) :=
  let at_ := fun d => if d = 0 then none else some (l.r.arrival + l.r.ext + d)
  l.gateRecs.map (fun g => at_ g.deadline) ++ l.gateSwaps.map (fun _ => at_ l.p.img.swapDeadline)

/-- May the gate's conditions be met as late as `t`? -/
def Live.inTime (l : Live) (t : Nat) : Bool :=
  l.deadlines.isEmpty || l.deadlines.any (fun d => match d with
    | none => true
    | some d => t ≤ d)

/-- Does some record stand unmet at or past its deadline? -/
def State.overdue (s : State) (l : Live) (t : Nat) : Bool :=
  let past := fun d => d != 0 && l.r.arrival + l.r.ext + d ≤ t
  l.gateRecs.any (fun g => past g.deadline && !s.recHolds l g) ||
    (past l.p.img.swapDeadline &&
      (l.planeSwaps.any (fun w => !s.planeHolds l w) || l.bankSwaps.any (fun w => !s.bankHolds l w)))

/-! ### Commit and abandonment of a rostered request (R370 to R373) -/

/-- The records of a delivery: four tokens each, from position `first` on; the last carries `fin` (R372). -/
def tokenRecs (handle tag flags endState : Nat) (fin : Bool) : Nat → Nat → List Nat → List Bytes
  | 0, _, _ => []
  | k + 1, first, toks =>
    let part := toks.take 4
    let last := fin && toks.length ≤ 4
    (tokenRec handle tag first part.length (flags + b2n last) 0 (if last then endState else 0) part) ::
      tokenRecs handle tag flags endState fin k (first + 4) (toks.drop 4)

def State.putTokens (s : State) (x : ReqEnt) : List Bytes → State
  | [] => s
  | r :: rs => (s.putToken x r).putTokens x rs

/-- Tokens delivered, up to the stop token and to max_new (R370 step 3), and whether the delivery is final. -/
def deliver (x : ReqEnt) : Nat → List Nat → List Nat × Bool
  | _, [] => ([], false)
  | 0, _ :: _ => ([], true)
  | n + 1, t :: ts =>
    if x.stopToken ≠ 0xFFFFFFFF && t = x.stopToken then ([t], true)
    else if n = 0 then ([t], true)
    else let r := deliver x n ts; (t :: r.1, r.2)

/-- The tokens that a step hands over for a request. -/
def stepTokens (x : ReqEnt) (r : Rostered) (o : ReqOut) : List Nat :=
  let n := if x.length < x.promptLen then (if x.promptLen ≤ x.length + r.n then 1 else 0) else min o.k r.drafts + 1
  (upFrom 0 n).map (fun i => nth 0 o.tokens i % 2 ^ 32)

/-- Flags of token records (Table 12-8) from the output block's flags. -/
def recFlags (x : ReqEnt) (fl : Nat) : Nat :=
  2 * b2n (bitAt fl 1) + 4 * b2n (bitAt fl 3) + 8 * b2n x.cancelLate + 16 * b2n x.switched

/-- Step 1 of R370: the step does not commit for the request. -/
def State.rejectReq (s : State) (c i : Nat) (x : ReqEnt) (r : Rostered) : State :=
  let y := { x with rejectRun := min 255 (x.rejectRun + 1), specLen := 0 }
  let s1 := (s.setReq i (some y)).unreserveN (hIdx x.output) r.records
  if s.rejectMax c ≤ y.rejectRun then s1.endReq i Rq.faulted Err.budget false
  else (s1.bump reqPage Reg.REQ_REJECT_COUNT).returnNew c y r.frames

/-- Ring head and tail of a request (R225). -/
def ReqEnt.setRing (x : ReqEnt) (k : KvRec) : ReqEnt :=
  if k.ringCap = 0 then { x with ringHead := 0, ringTail := 0 }
  else { x with ringHead := x.length % k.ringCap, ringTail := (x.length + 1 - k.window) % k.ringCap }

/-- The entry after a commit that delivers `n` tokens (R370 steps 2 to 6). -/
def commitEnt (x : ReqEnt) (k : KvRec) (r : Rostered) (n t : Nat) : ReqEnt :=
  let len := if x.length < x.promptLen then x.length + r.n else x.length + n
  let y := ({ x with length := len } : ReqEnt).setRing k
  let z := { y with rejectRun := 0, outCount := x.outCount + n, specLen := 0, draftCount := 0, switched := x.switched && n == 0 }
  if x.interval ≠ 0 && n ≠ 0 then { z with deadline := t + x.interval, deadlineMissed := false } else z

/-- A request's cut-list entry is uncorrectable (Table 14-11): it ends FAULTED where its state can be read, else it is withheld from
every group of the census, and nothing more is done with it. -/
def State.loseEntry (s : State) (x : ReqEnt) (r : Rostered) (o : ReqOut) : State :=
  let s1 := s.unreserveN (hIdx x.output) r.records
  if o.stateRead then s1.endReq r.idx Rq.faulted Err.poison false
  else s1.setReq r.idx (some { x with state := Rq.unread })

/-- A step commits for a rostered request. -/
def State.commitReq (s : State) (c t : Nat) (k : KvRec) (r : Rostered) (o : ReqOut) : State :=
  match s.reqEnt r.idx with
  | none => s
  | some x =>
    let s := s.sramSeen reqPage o.entry none
    if sramLost o.entry then s.loseEntry x r o
    else if x.boundStrict && bitAt o.flags 1 then s.rejectReq c r.idx x r
    else
      let d := deliver x (x.maxNew - x.outCount) (stepTokens x r o)
      let n := d.1.length
      let first := if x.length < x.promptLen then x.promptLen else x.length + 1
      let y := commitEnt x k r n t
      let recs := tokenRecs (s.handleOf .req r.idx) x.userTag (recFlags x o.flags) Rq.completed d.2 (ceilDiv n 4) first d.1
      let s1 := ((s.setReq r.idx (some y)).putTokens x recs).unreserveN (hIdx x.output) (r.records - recs.length)
      let s2 := { s1 with req := { s1.req with
        committed := (s1.req.committed + n) % 2 ^ 64, delivered := (s1.req.delivered + n) % 2 ^ 64 } }
      if d.2 && n ≠ 0 then s2.endReq r.idx Rq.completed 0 true
      else (s2.setReq r.idx (some { y with state := y.workState })).returnNew c y r.frames

def State.commitAll (s : State) (c t : Nat) (k : KvRec) : List Rostered → List ReqOut → State
  | [], _ => s
  | r :: rs, os => (s.commitReq c t k r (os.headD ⟨[], 0, 0, .clean, true⟩)).commitAll c t k rs os.tail

/-- An abandoned step leaves a request as it was (R371). -/
def State.abandonReq (s : State) (c : Nat) (r : Rostered) : State :=
  match s.reqEnt r.idx with
  | none => s
  | some x =>
    let y := { x with specLen := 0 }
    ((s.setReq r.idx (some y)).unreserveN (hIdx x.output) r.records).returnNew c y r.frames

/-! ### Rows 2 to 6 of Table 12-7 -/

/-- The due descriptors of a kind on a context's requests, at a stamp. -/
def State.dueOf (s : State) (c kind t : Nat) : List Due :=
  s.req.due.filter (fun d => d.kind == kind && d.tick ≤ t && (match s.reqEnt d.idx with
    | some x => x.ctx == c
    | none => false))

/-- A due descriptor has acted with a result: it leaves the list and completes. -/
def State.doneDue (s : State) (d : Due) (code result : Nat) : State :=
  ({ s with req := { s.req with due := s.req.due.filter (fun e => e != d) } } : State).finish d.flight.1 d.flight.2 code 0 result

/-- A waiting REQ_DRAFT acts (R366). -/
def State.actDraft (s : State) (d : Due) : State :=
  match s.reqEnt d.idx with
  | none => s.doneDue d 0 0
  | some x =>
    let r := postDrafts x (nth 0 d.args 0) (nth 0 d.args 1) (nth 0 d.args 2)
    (s.setReq d.idx (some r.1)).doneDue d 0 r.2

/-- Mark the live requests of a context that have missed their deadline (R374). -/
def State.markMisses (s : State) (t : Nat) : List (Nat × ReqEnt) → State
  | [] => s
  | (i, x) :: xs =>
    if x.live && x.deadline != 0 && x.deadline < t && !x.deadlineMissed then
      (((s.setReq i (some { x with deadlineMissed := true })).bump reqPage Reg.REQ_DEADLINE_MISS_COUNT).raise reqPage
        4).markMisses t xs
    else s.markMisses t xs

/-- RESUMING requests that are resident return to their working state. -/
def State.wakeResident (s : State) : List (Nat × ReqEnt) → State
  | [] => s
  | (i, x) :: xs =>
    (if x.state = Rq.resuming && s.resident x then s.setReq i (some { x with state := x.workState }) else s).wakeResident xs

/-- Row 2: every live request of a faulted context ends FAULTED. -/
def State.faultReqs (s : State) (code : Nat) : List (Nat × ReqEnt) → State
  | [] => s
  | (i, x) :: xs => (if x.live then s.endReq i Rq.faulted code false else s).faultReqs code xs

/-- Rows 2 to 6 of Table 12-7, with the drafts that act after row 1; `fault`: the context's code when it is faulted; `done`:
the requests on the closed step's roster. -/
def State.gateRows (s : State) (c t : Nat) (fault : Option Nat) (done : List Nat) : State :=
  let s1 : State := (s.dueOf c 2 t).foldl (fun (s : State) (d : Due) => s.actDraft d) s
  let s2 : State := match fault with
    | some code => s1.faultReqs code (s1.reqsOf c)
    | none => s1
  let s3 : State := (s2.dueOf c 0 t).foldl (fun (s : State) (d : Due) => (s.actCancel d.idx (done.contains d.idx)).doneDue d 0 0) s2
  let s4 : State := (s3.dueOf c 1 t).foldl (fun (s : State) (d : Due) => (s.actPause d.idx t).doneDue d 0 0) s3
  let s5 := s4.markMisses t (s4.reqsOf c)
  let s6 := (s5.turnGen c t).settleGens c
  s6.wakeResident (s6.reqsOf c)

/-! ### Escalations (R169, R170) -/

/-- Is escalation allowed for a layer in the bucket the plan runs? -/
def Live.escAllowed (l : Live) (layer : Nat) : Bool := bitAt (l.sc.layerEnt l.p.img.layerCount l.r.bucket layer).flags 0

/-- One escalation takes effect. -/
def State.takeEsc (s : State) (l : Live) (e : Nat × Nat × Nat) : State :=
  if e.2.1 = 0 then
    s.onCtx l.c (fun x => { x with esc := x.esc.filter (fun y => y != e.1), escUnavail := x.escUnavail.filter (fun y => y != e.1) })
  else if e.2.1 = 1 then s.onCtx l.c (fun x => { x with esc := insertAsc e.1 x.esc })
  else if l.escAllowed e.1 then
    ((s.onCtx l.c (fun x => { x with esc := insertAsc e.1 x.esc })).bump (leadPage l.r.lead) Reg.PLAN_ESC_TAKEN_COUNT).raise
      (leadPage l.r.lead) 4
  else s

/-- The escalations that a gate takes: all at a step-boundary gate, and those that shim units raised at one that abandons. -/
def State.takeEscs (s : State) (l : Live) (t : Nat) (boundary : Bool) : State :=
  let due := fun (e : Nat × Nat × Nat) => e.2.2 ≤ t && (boundary || e.2.1 == 2)
  let s1 := (l.x.escPend.filter due).foldl (fun s e => s.takeEsc l e) s
  let s2 := s1.onCtx l.c (fun x => { x with escPend := x.escPend.filter (fun e => !due e) })
  let bs := s2.bentsOf l.c
  { s2 with arrs := s2.arrs.map (fun a => if bs.contains (a.1 / 4) then (a.1, { a.2 with escPending := false }) else a) }

/-! ### The end of a plan run (R338, R339) -/

/-- What the units of a context hold of an ended run goes: pending passes, claims and stores, task lists, gate marks, and a
vector record that still ran. -/
def State.dropWork (s : State) (c : Nat) : State :=
  let bs := s.bentsOf c
  { s with
    arrs := (s.arrs.map (fun a => if bs.contains (a.1 / 4) then
      (a.1, { a.2 with passes := [], store := [], claims := [], swapWaiting := false }) else a)).filter (fun a => a.2 != Arr.reset)
    atts := (s.atts.map (fun a => if bs.contains (bentKey (a.1 / 16) (unitBent (a.1 % 16))) then
      (a.1, { a.2 with state := 0, tasks := [], lists := [], qFlits := [], fFlits := [], sent := 0 }) else a)).filter
      (fun a => a.2 != AttEng.reset)
    bents := (s.bents.map (fun b => if bs.contains b.1 then (b.1, { b.2 with vecBusy := 0 }) else b)).filter
      (fun b => b.2 != Bent.reset) }

/-- The ledgers of a context's bents close their open rows (R184). -/
def State.closeLedgers (s : State) (c : Nat) : State :=
  let bs := s.bentsOf c
  { s with bents := (s.bents.map (fun b => if bs.contains b.1 then (b.1, b.2.closeAll) else b)).filter (fun b => b.2 != Bent.reset) }

/-- Lowest die of a plan's dies field (R335). -/
def PlanImg.lead (g : PlanImg) : Nat := ((upFrom 0 8).find? (fun n => bitAt g.dies n)).getD 0

/-- The plan of a PLAN_RUN about to arrive at its opening gate (R334). -/
def newRun (i : Nat) (p : PlanObj) (flight : Nat × Nat) (knot : Nat) : Run where
  plan := i
  flight := flight
  lead := p.img.lead
  strict := p.img.strict
  sched := p.sched
  nextSched := none
  bucket := 0
  stepSegs := []
  inStep := false
  gate := none
  boundary := false
  arrival := 0
  released := false
  align := false
  ext := 0
  recalFrom := none
  swapped := []
  met := []
  swapWaits := []
  lastGate := 0
  knotSeen := knot
  stop := []
  stopAt := none
  destroy := none
  roster := []
  stepGen := 0
  nextGen := 0
  unavail := []
  fslot := 0
  baseSlot := 0
  leftAt := 0
  scan := Scan.zero
  undo := []

/-- Start a run of plan `i`. -/
def State.startRun (s : State) (i : Nat) (p : PlanObj) (flight : Nat × Nat) : State :=
  (s.onCtx p.ctx (fun x => { x with
    run := some (newRun i p flight s.fab.knots.version), faultState := false, lastPlan := i, lastStrict := p.img.strict
    lastSched := p.sched })).waitFlight flight.1 flight.2

/-- The plan that a waiting PLAN_RUN flight names, with its slot. -/
def State.runOf (s : State) (f : Flight) : Option (Nat × PlanObj) :=
  if dOpcode f.desc = 0x0D && f.phase = .waiting && s.checkHandle f.tenant .plan (dHandle f.desc) = 0 then
    (s.plan (hIdx (dHandle f.desc))).map (fun p => (hIdx (dHandle f.desc), p))
  else none

/-- A PLAN_RUN that waits in flight for the context starts (R334). -/
def State.startNext (s : State) (c : Nat) : State :=
  match s.que.flights.filterMap (fun f => (s.runOf f).bind (fun p => if p.2.ctx = c then some (f, p) else none)) with
  | [] => s
  | (f, p) :: _ => if s.running c then s else s.startRun p.1 p.2 (f.q, f.ix)

/-- Unload a plan: its residues go with it, its slot is freed, its roles end, and PLAN_RUNs that wait for it complete, latched on the
PLAN page of their queue's home die (R339, R66, R523). -/
def State.unloadPlan (s : State) (i : Nat) : State :=
  let h := s.handleOf .plan i
  let s1 := (s.setPlan i none).dropSlot .plan i
  let clear := fun (r : Option Nat) => if r = some i then none else r
  let drop := fun (x : Ctx) => { x with primary := clear x.primary, fallback := clear x.fallback }
  let s2 : State := { s1 with ctxs := s1.ctxs.map (fun (e : Nat × Option Ctx) => (e.1, e.2.map drop)) }
  let waits := fun (f : Flight) => dOpcode f.desc == 0x0D && f.phase == FPhase.waiting && dHandle f.desc == h
  (s2.que.flights.filter waits).foldl (fun (s : State) (f : Flight) =>
    s.lateFail (leadPage f.home) (f.q, f.ix) Err.staleHandle) s2

/-- A flight that waited for the plan to stop: a PLAN_STOP completes; a PLAN_UNLOAD unloads first. -/
def State.endStop (s : State) (i : Nat) (fl : Nat × Nat) : State :=
  match s.flight fl.1 fl.2 with
  | none => s
  | some f =>
    if dOpcode f.desc = 0x0C then
      (if (s.plan i).isSome then (s.unloadPlan i).finish fl.1 fl.2 0 0 0 else s.lateFail (leadPage f.home) fl Err.staleHandle)
    else s.finish fl.1 fl.2 0 0 0

/-- The plan stops with a code: its context is idle, or FAULTED. -/
def State.stopRun (s : State) (c : Nat) (r : Run) (code : Nat) (faulted : Bool) : State :=
  let s1 := (s.dropWork c).onCtx c (fun x => { x with
    run := none, lastError := code, lastSched := r.sched, faultState := faulted, strikes := []
    faulted := if faulted then none else x.faulted })
  let s2 := s1.finish r.flight.1 r.flight.2 code 0 0
  let s3 := r.stop.foldl (fun s f => s.endStop r.plan f) s2
  if r.destroy.isSome then s3 else s3.startNext c

/-- Severity of the record of an abandoned step: a context fault with a hardware cause is job-ending (R438). -/
def abandonSeverity (code : Nat) (faulted : Bool) : Option Nat :=
  if faulted && (code = Err.timeout || code = Err.digest || code = Err.poison) then some 3 else errSeverity code

/-- What a step of an optimiser plan overwrote stands as before: nothing of the step commits (R256). -/
def State.undoStep (s : State) (c : Nat) : State :=
  match s.live c with
  | none => s
  | some l => (s.onMem (fun m => l.r.undo.foldl (fun m i => m.restore i) m)).onRun c (fun r => { r with undo := [] })

/-- The waits of a gate's swaps, in fabric slots, when the plan resumes or stops (Tables 04-17 and 08-8). -/
def State.countWaits (s : State) (n : Nat) : List (Nat × Nat) → State
  | [] => s
  | w :: ws =>
    (if w.1 = 0 then s.bumpN (arrPage .arr (w.2 / 512) (w.2 / 4 % 128) (w.2 % 4)) Reg.ARR_SWAP_WAIT n
     else s.bumpN (gradPage (w.2 / 16) (w.2 % 16)) Reg.GRAD_SWAP_WAIT n).countWaits n ws

/-- A wait that ends with the plan counts up to the slot that the lead die has reached. -/
def State.endWaits (s : State) (l : Live) : State :=
  if l.r.gate.isSome then s.countWaits (s.slotOf l.r.lead 0 - l.fabSlot l.slot) l.r.swapWaits else s

/-- Spill holds placed on requests of a context before its gate: their frames may be taken after the gate's stamp (R227), but for
requests that the step in progress goes on with. -/
def State.passHolds (s : State) (c t : Nat) (rostered : List Nat) : State :=
  let mine := fun (i : Nat) => match s.reqEnt i with
    | some x => x.ctx == c && !rostered.contains i
    | none => false
  { s with pools := s.pools.map (fun p => { p with
      holds := p.holds.map (fun h => if mine h.1 && h.2.isNone then (h.1, some t) else h) }) }

/-- The step is abandoned at the gate the plan has arrived at, and the plan stops (Table 11-9, R371). -/
def State.abandon (s : State) (l : Live) (t code : Nat) (faulted : Bool) : State :=
  let pg := leadPage l.r.lead
  let s1 := s.latchErrAs (abandonSeverity code faulted) pg code (some l.c) 0 0
  let s2 := if l.r.inStep then (s1.bump pg Reg.PLAN_ABANDON_COUNT).raise pg 2 else s1
  let s3 := l.r.roster.foldl (fun s r => s.abandonReq l.c r) s2
  let s4 := ((((s3.endWaits l).undoStep l.c).closeLedgers l.c).abandonFolds l.c (l.x.steps + 1)).takeEscs l t l.r.boundary
  let s5 := s4.onRun l.c (fun r => { r with inStep := false, roster := [], stepGen := 0, nextGen := 0 })
  let s6 := (s5.gateRows l.c t (if faulted then some code else none) []).passHolds l.c t []
  s6.stopRun l.c l.r code faulted

/-! ### The opening of a step (R326, R327, R367, R369 rows 7 and 8) -/

/-- Layers of the escalation set that a bucket runs under their single segment (R169). -/
def Live.escMissing (l : Live) (sc : Sched) (b : Nat) : List Nat :=
  l.x.esc.filter (fun e => e < l.p.img.layerCount && (sc.layerEnt l.p.img.layerCount b e).wide == noWide)

/-- Count the layers found unavailable for the first time in this run. -/
def State.noteUnavail (s : State) (l : Live) (missing : List Nat) : State :=
  let new := missing.filter (fun e => !l.r.unavail.contains e)
  let pg := leadPage l.r.lead
  let s1 := s.onCtx l.c (fun x => { x with
    escUnavail := missing.foldl (fun acc e => insertAsc e acc) x.escUnavail
    run := x.run.map (fun r => { r with unavail := r.unavail ++ new }) })
  if new.isEmpty then s1 else (s1.bumpN pg Reg.PLAN_ESC_UNAVAIL_COUNT new.length).raise pg 4

/-- Passes still in flight, and the read-port slots their sampling takes, keep their distance in slots when a new step starts at
slot 0 (R522). -/
def State.rebase (s : State) (c slots : Nat) : State :=
  let bs := s.bentsOf c
  { s with
    arrs := s.arrs.map (fun a => if bs.contains (a.1 / 4) then
      (a.1, { a.2 with
        passes := a.2.passes.map (fun p => { p with slot := p.slot - slots }), claims := []
        cal := { a.2.cal with reads := a.2.cal.reads.map (fun x => (x.1 - slots, x.2)) } }) else a) }

/-- What the roster of the opening step forms under. -/
def State.rosterEnv (s : State) (l : Live) (sc : Sched) (gen t : Nat) : RosterEnv × Nat :=
  let cands := s.candidates l.c t
  let win := look 0 s.req.urgent l.c
  let last := sc.buckets.length - 1
  let ub := if l.p.img.bucketCount ≤ s.urgentBucket l.c then last else s.urgentBucket l.c
  let urgent := cands.any (fun e => e.2.urgent t win)
  let b := if urgent then ub else last
  (⟨l.c, l.p.img, l.x.kv, sc.bucket b, sc.windows (sc.stepOf l.p.img.layerCount l.x.esc b), urgent && ub < last, t, win, gen,
    l.x.curGen, l.x.steps⟩, b)

/-- The step opens: schedule, roster, bucket, segments, task lists and the generation of the following step. -/
def State.openStep (s : State) (l : Live) (t : Nat) : State :=
  let i := l.r.nextSched.getD l.r.sched
  let sc := l.p.img.sched i
  let gen := if l.r.nextGen = 0 then l.x.curGen else l.r.nextGen
  let e := s.rosterEnv l sc gen t
  let f := (Form.mk s [] 0 []).takeAll e.1 (s.candidates l.c t)
  let b := f.s.chooseBucket l.p.img sc l.x.kv l.x.esc f.ros e.2
  let segs := sc.stepOf l.p.img.layerCount l.x.esc b
  let s1 := f.s.giveTasks l.p.img l.x.kv (sc.windows segs) f.ros (sc.unitsOf 4 segs)
  let s2 := (s1.noteUnavail l (l.escMissing sc b)).onCtx l.c (fun x => { x with
    lastSched := i
    run := x.run.map (fun r => { r with
      sched := i, nextSched := none, bucket := b, stepSegs := segs, inStep := true, lastGate := 0, roster := f.ros
      stepGen := gen, gate := some 0, boundary := false, scan := Scan.zero, undo := [] }) })
  s2.fixGen l.c l.x.curGen (s2.candidates l.c t)

/-! ### Arrival (rows 1 to 4) -/

/-- Rows 4: a swap that expects a refused or poisoned load: the code, and whether the context is faulted. -/
def State.badSwap (s : State) (l : Live) : Option (Nat × Bool) :=
  l.planeSwaps.findSome? (fun w =>
    if l.r.swapped.contains (arrKey w.1.die w.1.unit w.2) then none
    else match s.swapState w.1.die w.1.unit w.2 w.1.tag with
      | .refused code => some (code, false)
      | .poisoned => some (Err.poison, true)
      | .accepted | .wait => none)

/-- Add the strides of the gate's terms to their bindings' targets (R330). -/
def addStrides (binds : List (Nat × Nat)) : List (Nat × Nat) → List (Nat × Nat)
  | [] => binds
  | t :: ts =>
    let b := nth (0, 0) binds t.1
    addStrides (binds.set t.1 (b.1, (b.2 + t.2) % 2 ^ 64)) ts

/-- The swaps of the gate that do not hold: shown on the ARR pages, and counted when the plan resumes or stops. Only the arrays whose
own swap does not hold on arrival show and count the wait (R138). DEDUCED: log entry 80. -/
def State.noteWaits (s : State) (l : Live) : State :=
  let ps := l.planeSwaps.filter (fun w => !s.planeHolds l w)
  let gs := l.bankSwaps.filter (fun w => !s.bankHolds l w)
  let s1 := ps.foldl (fun s w => s.onArr w.1.die w.1.unit w.2 (fun a => { a with swapWaiting := true })) s
  let new := ps.map (fun w => (0, arrKey w.1.die w.1.unit w.2)) ++ gs.map (fun w => (1, unitKey w.die w.unit))
  s1.onRun l.c (fun r => { r with swapWaits := r.swapWaits ++ new })

/-- Row 3: a new knot map version since the previous gate chooses a schedule (R313). -/
def State.chooseAt (s : State) (l : Live) : Option State :=
  if l.r.inStep && l.r.knotSeen == s.fab.knots.version then some s
  else match s.chooseSched l.p.img l.r.sched with
    | none => none
    | some i => some (s.onRun l.c (fun r => { r with
        knotSeen := s.fab.knots.version, nextSched := if i = l.r.sched then none else some i }))

/-- Rows 1 to 4 at the gate the plan has arrived at. -/
def State.arriveRows (s : State) (l : Live) (t : Nat) : State :=
  match l.r.destroy, l.x.faulted with
  | some _, _ => s.abandon l t Err.staleHandle false
  | none, some code => s.abandon l t code true
  | none, none =>
    if l.r.strict && l.x.strikes.any (fun k => k ≤ t) then s.abandon l t Err.budget false
    else match s.chooseAt l with
      | none => s.abandon l t Err.usesKnot false
      | some s1 => match s1.badSwap l with
        | some e => s1.abandon l t e.1 e.2
        | none => (s1.noteTerms l).noteWaits l

/-- The plan arrives at a gate of its step, or at its opening gate: what was retired on its bents enters the knot map (R136), and the
gate's rows follow. -/
def State.arriveAt (s : State) (c slot t : Nat) (boundary align : Bool) : State :=
  let s1 := (s.installFor c).onRun c (fun r => { r with
    gate := some slot, boundary := boundary, arrival := t, released := false, align := align, ext := 0, recalFrom := none
    swapped := [], met := [], swapWaits := if align then r.swapWaits else [] })
  match s1.live c with
  | none => s1
  | some l =>
    let s2 := s1.setPlan l.r.plan (some { l.p with binds := addStrides l.p.binds (l.gateRecs.flatMap (fun g => g.terms)) })
    match s2.live c with
    | none => s2
    | some l2 => s2.arriveRows l2 t


/-! ### Release (rows 6 and 7) -/

/-- The swaps of a released gate (Table 04-3, R245). -/
def State.makeSwaps (s : State) (l : Live) : State :=
  let s1 := l.planeSwaps.foldl (fun s w =>
    let s1 := if l.r.swapped.contains (arrKey w.1.die w.1.unit w.2) then s else s.swapArr w.1.die w.1.unit w.2
    s1.onArr w.1.die w.1.unit w.2 (fun a => { a with swapWaiting := false })) s
  l.bankSwaps.foldl (fun s w => s.bankSwap w.die w.unit) s1

/-- The plan leaves a gate: at once, or aligned to residue 0 (R307). -/
def State.depart (s : State) (c : Nat) (align : Bool) : State :=
  s.onRun c (fun r => { r with
    gate := if align then r.gate else none, released := align, align := align, lastGate := r.gate.getD 0 })

/-- Signal bindings of the gate's records gain 1 (Table 11-6). -/
def State.signalGate (s : State) (l : Live) : State :=
  l.gateRecs.foldl (fun s g =>
    if g.signal = 0xFF then s
    else
      let h := (nth (0, 0) l.p.binds g.signal).1
      if s.checkOwn .sync h = 0 then s.syncAdd (hIdx h) 1 else s) s

/-- The optimiser block that a plan writes its step record into (Table 08-2). The spec does not say where an optimiser plan finds
it: it stands at the start of memory binding 3, the first that R331 leaves free. DESIGN CHOICE: log entry 86. -/
def Live.optBlock (l : Live) : Option Nat :=
  if l.p.img.optimiser && 104 ≤ (l.membind 3).2 then some (l.membind 3).1 else none

/-- Write fields of the step record, and keep what they replace; a poisoned block faults the context (R256). -/
def State.putRecordAt (s : State) (l : Live) (a off : Nat) (bs : Bytes) (flags : Nat) : State :=
  let s1 := (s.keepBlks l (blksOf (a + off) bs.length)).unitWrite (a + off) bs (s.stepTag l.c) (producer l.r.lead 5 0) 0
  if Flag.isPoison flags then s1.consumePoison (leadPage l.r.lead) l.c a else s1

/-- The update phase opens: norm, gscale, the counts and the outcome of the scan (R254, R255). -/
def State.writeScan (s : State) (l : Live) : State :=
  match l.optBlock with
  | none => s
  | some a =>
    let r := s.unitRead a 0x50
    let k := l.r.scan
    let norm := (fSqrt k.norm2).bits
    let clip := fieldB r.1.data 0x44 4
    let gscale := if fLt 0 clip && fLt clip norm then (fDiv clip norm).bits else 0x3F800000
    let outcome := if k.nonfinite ≠ 0 then 1 else if k.flagged ≠ 0 && bitAt (fieldB r.1.data 0x2C 4) 31 then 2 else 0
    r.2.putRecordAt l a 0x50 ([norm, gscale, k.nonfinite, k.flagged, outcome, 0].flatMap (leBytes 4)) r.1.flags

/-- The step closes: the columns that re-packing clamped (R257). -/
def State.writeClamped (s : State) (l : Live) : State :=
  match l.optBlock with
  | none => s
  | some a => s.putRecordAt l a 0x64 (leBytes 4 l.r.scan.clamped) 0

/-- The step in progress commits (R36, row 6). -/
def State.commitStep (s : State) (l : Live) (outs : List ReqOut) (t : Nat) : State :=
  let s1 := ((s.commitAll l.c t l.x.kv l.r.roster outs).writeClamped l).closeFolds l.c (l.x.steps + 1)
  let s2 := s1.onCtx l.c (fun x => { x with steps := (x.steps + 1) % 2 ^ 64 })
  (s2.bump (leadPage l.r.lead) Reg.PLAN_STEP_COUNT).signalGate l

/-- Requests of the closed step's roster. -/
def Live.rosterIdx (l : Live) : List Nat := l.r.roster.map (fun r => r.idx)

/-- A released step-boundary gate closes its step and, unless a stop takes effect, opens the next one. -/
def State.passBoundary (s : State) (l : Live) (outs : List ReqOut) (t : Nat) : State :=
  let stopping := match l.r.stopAt with
    | some k => decide (k ≤ t)
    | none => false
  let slots := l.stepSlots
  let s1 := if l.r.inStep then s.commitStep l outs t else s
  let s2 := (s1.takeEscs l t true).onRun l.c (fun r => { r with
    inStep := false, roster := [], stepGen := 0, nextGen := if stopping then 0 else r.nextGen
    fslot := if l.r.inStep then l.fabSlot slots else r.fslot, baseSlot := 0, leftAt := if l.r.inStep then l.fabSlot slots else 0 })
  let s3 := (s2.gateRows l.c t none l.rosterIdx).passHolds l.c t []
  if stopping then s3.stopRun l.c l.r 0 false
  else match s3.live l.c with
    | none => s3
    | some l3 =>
      let s4 := (s3.rebase l.c (if l.r.inStep then slots else 0)).openStep l3 t
      match s4.live l.c with
      | none => s4
      | some l4 =>
        let align := l.r.align || !l.r.inStep || l.r.arrival < t || !s4.routersBefore l4 (l4.fabSlot 0)
        if l4.gateMarks.any (fun m => m.1 == 0) || l4.swapMarks.any (fun m => m.1 == 0) then
          s4.arriveAt l.c 0 t false align
        else s4.depart l.c align

/-- The gate's conditions have come to hold: the plan leaves it at its release stamp. It goes on with no extra slot only where it has
not waited and no router has begun the slots after the gate (R307). -/
def State.releaseGate (s : State) (l : Live) (outs : List ReqOut) (t : Nat) : State :=
  let n := sumL (l.gateRecs.map (fun g => g.terms.length))
  let s1 := ((s.bumpN (leadPage l.r.lead) Reg.PLAN_GATE_WAIT (t - l.r.arrival)).bumpN syncPage Reg.SYNC_WAIT_COUNT n).onCtx l.c
    (fun x => { x with strikes := x.strikes.filter (fun k => t < k) })
  let s2 := s1.makeSwaps l
  if l.r.boundary then s2.passBoundary l outs t
  else ((if l.atUpdate then s2.writeScan l else s2).passHolds l.c t l.rosterIdx).depart l.c (l.r.align || decide (l.r.arrival < t) ||
    !s.routersBefore l (l.fabSlot l.slot))

/-- What stops a plan that waits at a gate: withdrawals that count against it, a load refused or poisoned meanwhile, or a term
whose object has gone (R165, Table 04-3, R355). -/
def State.gateBreak (s : State) (l : Live) (t : Nat) : Option (Nat × Bool) :=
  if l.r.strict && l.x.strikes.any (fun k => k ≤ t) then some (Err.budget, false)
  else match s.badSwap l with
    | some e => some e
    | none => if l.gateRecs.any (fun g => (l.terms g).any (fun b => !l.r.met.contains b && s.termGone b)) then
      some (Err.staleHandle, true) else none

/-- Does the gate look at synchronisation objects? -/
def Live.hasTerms (l : Live) : Bool := l.gateRecs.any (fun g => !g.terms.isEmpty)

def State.tryRelease (s : State) (l : Live) (outs : List ReqOut) (t : Nat) : State :=
  match s.gateBreak l t with
  | some e => s.abandon l t e.1 e.2
  | none => if s.gateHolds l t && l.inTime t then s.releaseGate l outs t else s.noteTerms l

/-- The plans that wait at a gate look at their terms: what holds stays satisfied. -/
def State.noteAllTerms (s : State) : State :=
  s.ctxs.foldl (fun (s : State) (e : Nat × Option Ctx) => match s.live e.1 with
    | some l => if l.r.gate.isSome && !l.r.released then s.noteTerms l else s
    | none => s) s

/-- A gate whose deadline has come (R336). -/
def State.tryDeadline (s : State) (l : Live) (t : Nat) : State :=
  match s.gateBreak l t with
  | some e => s.abandon l t e.1 e.2
  | none =>
    if l.r.recalFrom.isNone && s.overdue l t then
      ((s.bump (leadPage l.r.lead) Reg.PLAN_TIMEOUT_COUNT).raise (leadPage l.r.lead) 3).abandon l t Err.timeout false
    else s

/-- The plan resumes at the first fabric slot of residue 0 above `f`, the slot in which its release stamp fell (R307). -/
def State.resumeAt (s : State) (l : Live) (f : Nat) : State :=
  let n := (f / 64 + 1) * 64
  let here := l.r.fslot + (l.slot - l.r.baseSlot)
  ((s.bumpN (diePage .fab l.r.lead) Reg.FAB_ALIGN_SLOTS (n - f)).countWaits (f - here) l.r.swapWaits).onRun l.c (fun r => { r with
    gate := none, released := false, align := false, swapWaits := [], fslot := n, baseSlot := l.slot })

end Sys2Proof.Machine
end

