-- ==== Sys2Proof/Machine/PlanParse.lean ====
section
/-!
DEFINITION. The plan image (R322 to R331): its header, sections, streams and records as bytes, and check 5 of Table 11-8.
-/

namespace Sys2Proof.Machine

/-! ### Header and sections (Tables 11-1 and 11-2) -/

/-- Bytes of the signature part of an image (R322). -/
abbrev sigPart : Nat := 3312
abbrev planMagic : Nat := 0x50564C50

/-- A section directory entry (R323). -/
structure Sect where
  type : Nat
  sched : Nat
  len : Nat
  off : Nat
  deriving DecidableEq, Repr

def sectAt (b : Bytes) (dir i : Nat) : Sect :=
  let o := dir + 16 * i
  ⟨fieldB b o 2, fieldB b (o + 2) 1, fieldB b (o + 4) 4, fieldB b (o + 8) 8⟩

/-- The sections of an image, in directory order. -/
def sectsOf (b : Bytes) : List Sect := (upFrom 0 (fieldB b 0x2A 2)).map (fun i => sectAt b (fieldB b 0x30 8) i)

def bytesAt (b : Bytes) (off n : Nat) : Bytes := (b.drop off).take n
def Sect.body (t : Sect) (b : Bytes) : Bytes := bytesAt b t.off t.len

/-- Records of `n` bytes in a section's body. -/
def recsOf (n : Nat) (b : Bytes) : List Bytes := (upFrom 0 (b.length / n)).map (fun i => bytesAt b (n * i) n)

/-! ### Records -/

def bucketOf (r : Bytes) : Bucket := ⟨fieldB r 0 2, fieldB r 2 2, fieldB r 4 4, fieldB r 8 4⟩
def layerOf (r : Bytes) : LayerEnt := ⟨fieldB r 0 4, fieldB r 4 4, fieldB r 8 4⟩
def gateOf (r : Bytes) : GateRec :=
  ⟨fieldB r 0 4, fieldB r 4 4, fieldB r 8 1, fieldB r 9 1, fieldB r 10 1, fieldB r 12 4,
    (upFrom 0 (min 4 (fieldB r 9 1))).map (fun i => (fieldB r (16 + 4 * i) 1, fieldB r (18 + 4 * i) 2))⟩
def swapOf (r : Bytes) : SwapRec :=
  ⟨fieldB r 0 4, fieldB r 4 4, fieldB r 8 1, fieldB r 9 1, fieldB r 10 1, fieldB r 11 1, fieldB r 12 2⟩
def attEntOf (r : Bytes) : AttEnt :=
  ⟨fieldB r 0 2, fieldB r 2 1, fieldB r 3 1, fieldB r 4 1, fieldB r 6 2, fieldB r 8 4, fieldB r 12 1, fieldB r 16 8⟩

/-- A weight feed serves a die and has one stream there; only arrays and shim units have a sub number. -/
def normUnit (kind unit : Nat) : Nat := if kind = 6 then 0 else unit
def normSub (kind sub : Nat) : Nat := if kind = 1 then sub else 0

/-- A stream of a segment (R324). -/
def streamOf (seg r : Bytes) : Stream :=
  let kind := fieldB r 0 1
  ⟨kind, fieldB r 1 1, normUnit kind (fieldB r 2 1), normSub kind (fieldB r 3 1),
    (recsOf 16 (bytesAt seg (fieldB r 8 8) (16 * fieldB r 4 4))).map (fun w => (fieldB w 0 4, fieldB w 8 8))⟩

/-- The stream directory entries of a segment. -/
def streamDir (seg : Bytes) : List Bytes := (upFrom 0 (fieldB seg 8 4)).map (fun i => bytesAt seg (32 + 16 * i) 16)

def segOf (seg : Bytes) : Segment := ⟨fieldB seg 0 8, (streamDir seg).map (fun r => streamOf seg r)⟩

/-- The body of the one section of a type and schedule. -/
def bodyOf (b : Bytes) (type sched : Nat) : Bytes :=
  match (sectsOf b).find? (fun t => t.type == type && t.sched == sched) with
  | some t => t.body b
  | none => []

/-- A schedule's segments, numbered in directory order. -/
def segSects (b : Bytes) (sched : Nat) : List Sect := (sectsOf b).filter (fun t => t.type == 3 && t.sched == sched)

def schedOf (b : Bytes) (i : Nat) : Sched where
  buckets := (recsOf 16 (bodyOf b 1 i)).map bucketOf
  layers := (recsOf 12 (bodyOf b 2 i)).map layerOf
  segs := (segSects b i).map (fun t => segOf (t.body b))
  gates := (recsOf 32 (bodyOf b 4 i)).map gateOf
  swaps := (recsOf 16 (bodyOf b 5 i)).map swapOf

/-- What the device keeps of an image. -/
def imgOf (b : Bytes) : PlanImg where
  strict := bitAt (fieldB b 0x06 2) 0
  learning := bitAt (fieldB b 0x06 2) 1
  optimiser := bitAt (fieldB b 0x06 2) 2
  keys := (upFrom 0 5).map (fun i => fieldB b (0x10 + 4 * i) 4)
  altCount := fieldB b 0x24 1
  variants := fieldB b 0x25 1
  dies := fieldB b 0x26 1
  bucketCount := fieldB b 0x27 1
  layerCount := fieldB b 0x28 2
  bindCount := fieldB b 0x2C 1
  memBindCount := fieldB b 0x2D 1
  swapDeadline := fieldB b 0x38 4
  scheds := (upFrom 0 (1 + fieldB b 0x24 1)).map (fun i => schedOf b i)
  att := (recsOf 32 (bodyOf b 7 0xFF)).map attEntOf
  shardMap := bodyOf b 6 0xFF
  digest := Config.shake256_256 b

/-! ### Check 5 of Table 11-8 -/

/-- Counts of the header within the ranges of Table 11-1. -/
def headerOk (b : Bytes) : Bool :=
  let g := imgOf b
  g.altCount ≤ 4 && 1 ≤ g.bucketCount && g.bucketCount ≤ 16 && 1 ≤ g.layerCount && g.layerCount ≤ 1024 &&
    1 ≤ fieldB b 0x2A 2 && fieldB b 0x2A 2 ≤ 1024 && g.bindCount ≤ 64 && g.memBindCount ≤ 64

/-- Sections lie in the image before the signature and have a type and schedule of Table 11-2. -/
def sectOk (b : Bytes) (t : Sect) : Bool :=
  t.off + t.len ≤ b.length - sigPart && 1 ≤ t.type && t.type ≤ 7 &&
    (if t.type = 6 || t.type = 7 then t.sched == 0xFF else t.sched ≤ fieldB b 0x24 1)

def countSects (b : Bytes) (type sched : Nat) : Nat :=
  ((sectsOf b).filter (fun t => t.type == type && t.sched == sched)).length

def sectionsOk (b : Bytes) : Bool :=
  let g := imgOf b
  fieldB b 0x30 8 + 16 * fieldB b 0x2A 2 ≤ b.length - sigPart && (sectsOf b).all (fun t => sectOk b t) &&
    countSects b 6 0xFF ≤ 1 && countSects b 7 0xFF ≤ 1 && (bodyOf b 7 0xFF).length % 32 == 0 &&
    (upFrom 0 (1 + g.altCount)).all (fun i =>
      [1, 2, 4, 5].all (fun ty => countSects b ty i == 1) && (bodyOf b 1 i).length == 16 * g.bucketCount &&
      (bodyOf b 2 i).length == 12 * g.bucketCount * g.layerCount && (bodyOf b 4 i).length % 32 == 0 &&
      (bodyOf b 5 i).length % 16 == 0)

/-- A segment's streams lie within it, and its slot count is a multiple of 64 (R324). -/
def segBytesOk (seg : Bytes) : Bool :=
  32 ≤ seg.length && fieldB seg 0 8 % 64 == 0 && 32 + 16 * fieldB seg 8 4 ≤ seg.length &&
    (streamDir seg).all (fun r => fieldB r 8 8 + 16 * fieldB r 4 4 ≤ seg.length)

/-- Words stand in ascending slot offset within the segment. -/
def wordsAscend (slots : Nat) : List (Nat × Nat) → Bool
  | [] => true
  | [w] => w.1 < slots
  | w :: v :: ws => w.1 < v.1 && wordsAscend slots (v :: ws)

/-- The attention words of an engine within the ranges of Table 07-30 and in the order of R208: `st` 0 before a window, 1 in one, 2 after its close. -/
def attOrder : Nat → List (Nat × Nat) → Bool
  | st, [] => st != 1
  | st, w :: ws =>
    let op := bits w.2 63 60
    if op = 0 then attOrder st ws
    else if op = 1 then st != 1 && bits w.2 47 32 != 0 && bits w.2 49 48 != 3 && bits w.2 31 0 == 0 && attOrder 1 ws
    else if op = 2 then st == 1 && bits w.2 31 0 == 0 && attOrder 2 ws
    else if op = 3 || op = 4 then st == 1 && attOrder 1 ws
    else op == 5 && st == 2 && attOrder 2 ws

/-- Words of a stream within the ranges of Tables 11-3 to 11-5 and 11-39. -/
def streamOk (slots : Nat) (t : Stream) : Bool :=
  t.kind ≤ 7 && wordsAscend slots t.words &&
    (t.kind != 1 || t.words.all (fun w => w.1 % 16 == 0 && bits w.2 63 62 != 3)) &&
    (t.kind != 2 || t.words.all (fun w => bits w.2 63 60 ≤ 6)) &&
    (t.kind != 4 || attOrder 0 t.words) &&
    (t.kind != 6 || t.words.all (fun w => bits w.2 63 48 != 0)) &&
    (t.kind != 7 || t.words.all (fun w => bits w.2 63 60 ≤ 2 && bits w.2 47 0 % 128 == 0))

/-- Buckets ascend (R326). -/
def bucketsAscend : List Bucket → Bool
  | a :: b :: bs => a.requests ≤ b.requests && a.vectors ≤ b.vectors && (a.requests != b.requests || a.vectors != b.vectors) &&
      bucketsAscend (b :: bs)
  | [_] => true
  | [] => true

def Sched.isTail (sc : Sched) (i : Nat) : Bool := sc.buckets.any (fun b => b.tail == i)

/-- Where a gate or swap may stand: at a multiple of 64 within its segment, or at the end of a tail segment, where it joins the
step-boundary gate (R326, R329). -/
def Sched.markOk (sc : Sched) (segment offset : Nat) : Bool :=
  segment < sc.segs.length && offset % 64 == 0 &&
    (offset < (sc.seg segment).slots || (offset == (sc.seg segment).slots && sc.isTail segment))

def Sched.gateOk (sc : Sched) (g : PlanImg) (r : GateRec) : Bool :=
  r.kind ≤ 1 && sc.markOk r.segment r.offset && r.waits ≤ 4 && (r.signal == 0xFF || r.signal < g.bindCount) &&
    r.terms.all (fun t => t.1 < g.bindCount) &&
    (r.kind != 0 || (sc.isTail r.segment && r.offset == (sc.seg r.segment).slots))

def Sched.swapOk (sc : Sched) (r : SwapRec) : Bool := r.kind ≤ 1 && sc.markOk r.segment r.offset

/-- Tiles that a gradient unit's banks take over a run of words: a second tile before a swap is refused (R246). -/
def tilesOk (swaps : List Nat) : Option (Nat × Nat) → List (Nat × Nat) → Bool
  | _, [] => true
  | last, w :: ws =>
    if bits w.2 63 60 ≠ 1 then tilesOk swaps last ws
    else
      let tile := bits w.2 55 32
      match last with
      | none => tilesOk swaps (some (w.1, tile)) ws
      | some (at_, t) =>
        (t == tile || swaps.any (fun m => at_ < m && m ≤ w.1)) && tilesOk swaps (some (w.1, tile)) ws

/-- The gradient banks over a run of segments. -/
def Sched.segBanksOk (sc : Sched) (segs : List Nat) : Bool :=
  (sc.unitsOf 5 segs).all (fun u =>
    let marks := (sc.swaps.filter (fun w => w.kind == 1 && w.die == u.1 && w.unit == u.2)).flatMap (fun w =>
      sc.marksFrom w.segment w.offset 0 segs)
    tilesOk marks none (sc.wordsFrom 5 u.1 u.2 0 0 segs))

/-- The gradient banks over every step of a schedule and the step after it, which finds the bank as this one left it, with single
and with wide segments. -/
def Sched.banksOk (sc : Sched) (n : Nat) : Bool :=
  let steps := (upFrom 0 sc.buckets.length).flatMap (fun b => [[], upFrom 0 n].map (fun esc => sc.stepOf n esc b))
  steps.all (fun a => steps.all (fun b => sc.segBanksOk (a ++ b)))

def Sched.ok (sc : Sched) (g : PlanImg) : Bool :=
  sc.segs.all (fun s => s.streams.all (fun t => streamOk s.slots t)) && bucketsAscend sc.buckets &&
    sc.buckets.all (fun b => b.head < sc.segs.length && b.tail < sc.segs.length) &&
    sc.layers.all (fun e => e.single < sc.segs.length && (e.wide == noWide || e.wide < sc.segs.length)) &&
    sc.gates.all (fun r => sc.gateOk g r) && sc.swaps.all (fun r => sc.swapOk r) && sc.banksOk g.layerCount

/-- Attention table entries within the ranges of Table 11-38, in ascending layer. -/
def attAscend : List AttEnt → Bool
  | a :: b :: as => a.layer < b.layer && attAscend (b :: as)
  | [_] => true
  | [] => true
def attEntOk (g : PlanImg) (a : AttEnt) : Bool :=
  a.layer < g.layerCount && a.placement ≤ 1 && 1 ≤ a.qPerKv && a.qPerKv ≤ 64 && (a.placement == 1 || a.tMax == 0)

/-- Check 5: everything lies within its container and within its range. -/
def imageOk (b : Bytes) : Bool :=
  headerOk b && sectionsOk b &&
    (upFrom 0 (1 + (imgOf b).altCount)).all (fun i => (segSects b i).all (fun t => segBytesOk (t.body b))) &&
    (imgOf b).scheds.all (fun sc => sc.ok (imgOf b)) && attAscend (imgOf b).att &&
    (imgOf b).att.all (fun a => attEntOk (imgOf b) a)

end Sys2Proof.Machine
end

