-- ==== Sys2Proof/Machine/PlanLoad.lean ====
section
/-!
DEFINITION. Loading a plan (R332, R333): the checks of Table 11-8 in order, and the loaded plan.
-/

namespace Sys2Proof.Machine

abbrev planPage (die : Nat) : Page := diePage .plan die

/-- Bit of a variant in a plan's variants field (Table 11-1). -/
def variantBit (v : Variant) : Nat :=
  match v with
  | .vxj4t => 0
  | .vxj4s => 1
  | .vxj2s => 2

/-! ### The units that an image names -/

def PlanImg.streams (g : PlanImg) : List Stream := g.scheds.flatMap (fun sc => sc.segs.flatMap (fun s => s.streams))
def PlanImg.swapRecs (g : PlanImg) : List SwapRec := g.scheds.flatMap (fun sc => sc.swaps)

/-- Is a stream's unit one that the package has (check 6)? -/
def State.unitHere (s : State) (t : Stream) : Bool :=
  s.dieOk t.die &&
    (if t.kind ≤ 3 then t.unit < 128 && t.sub < 4
     else if t.kind = 4 then t.unit < 16
     else if t.kind = 5 then t.unit < 16 && s.hasGrad
     else if t.kind = 7 then t.unit < 32
     else true)

def State.swapHere (s : State) (w : SwapRec) : Bool :=
  s.dieOk w.die && (if w.kind = 0 then w.unit < 128 else w.unit < 16 && s.hasGrad)

/-- Check 6: the variant, and every die, engine and gradient unit named. -/
def State.unitsHere (s : State) (g : PlanImg) : Bool :=
  bitAt g.variants (variantBit s.variant) && (upFrom 0 8).all (fun n => !bitAt g.dies n || s.dieOk n) &&
    g.streams.all (fun t => s.unitHere t) && g.swapRecs.all (fun w => s.swapHere w)

/-- Does a context own all eight bents of an engine or gradient unit (R264)? -/
def State.ownsUnit (s : State) (c die e : Nat) : Bool :=
  (upFrom (unitBent e) 8).all (fun b => s.owner die b == some c)

def State.ownsStream (s : State) (c : Nat) (t : Stream) : Bool :=
  if t.kind = 1 || t.kind = 2 || t.kind = 3 then s.owner t.die t.unit == some c
  else if t.kind = 4 || t.kind = 5 then s.ownsUnit c t.die t.unit
  else if t.kind = 6 then t.words.all (fun w => s.owner t.die (bits w.2 45 39) == some c)
  else true

/-- Check 7. A router that a plan routes through need not belong to a bent of its context (R306). -/
def State.ownsAll (s : State) (c : Nat) (g : PlanImg) : Bool :=
  g.streams.all (fun t => s.ownsStream c t) &&
    g.swapRecs.all (fun w => if w.kind = 0 then s.owner w.die w.unit == some c else s.ownsUnit c w.die w.unit)

/-! ### Check 8 -/

/-- A range of a memory binding that a ring-port word names: within the binding, on the port's own die (R325). -/
def ringOk (mb : List (Nat × Nat)) (die w : Nat) : Bool :=
  let b := nth (0, 0) mb (bits w 59 54)
  let a := b.1 + bits w 47 0
  bits w 63 60 == 0 || (bits w 59 54 < mb.length && bits w 47 0 + 128 ≤ b.2 && dieOf a == die)

/-- Rows of statistics that a layer can write in one step. -/
def statRows (g : PlanImg) (kv : KvRec) (a : AttEnt) : Nat :=
  maxL (g.scheds.flatMap (fun sc => sc.buckets.map (fun b => b.vectors))) * a.qPerKv * (kv.group a.group).heads

/-- Conditions 1 and 2 of Table 07-1 for a layer that prefills on arrays. -/
def prefillOk (g : PlanImg) (kv : KvRec) (a : AttEnt) : Bool :=
  a.placement == 0 || (g.scheds.all (fun sc => sc.buckets.all (fun b => b.requests == 1 && 1 ≤ b.vectors && b.vectors ≤ 4096)) &&
    (kv.group a.group).dim ≤ 512 && 1 ≤ a.tMax && a.tMax ≤ 4096)

def attLoadOk (g : PlanImg) (kv : KvRec) (mb : List (Nat × Nat)) (a : AttEnt) : Bool :=
  a.group < kv.groups.length && prefillOk g kv a &&
    (a.statsBinding == 0xFF || (a.statsBinding < mb.length &&
      a.statsOffset + 8 * statRows g kv a ≤ (nth (0, 0) mb a.statsBinding).2))

/-- Does all that a ledger word names lie below 0x20_0000 (R173): the blocks a STORE writes, the 2 KiB row that OPEN_LOAD or ADD_IN
takes from the bench? The field itself holds no address above. -/
def ledgIn (w : Nat) : Bool :=
  let a := ledgAddr w
  let op := bits w 63 60
  if a = fabAddr then true
  else if op = 5 then a / 4096 * 4096 + 4096 * ledgBlocks w ≤ 0x200000
  else !(op == 2 || op == 3) || a + 2048 ≤ 0x200000

/-- Check 8: bench addresses, attention entries, memory bindings and ring-port words. -/
def State.bindingsOk (s : State) (g : PlanImg) (kv : KvRec) (mb : List (Nat × Nat)) : Bool :=
  g.streams.all (fun t => t.kind != 2 || t.words.all (fun w => ledgIn w.2)) &&
    g.att.all (fun a => attLoadOk g kv mb a) && mb.all (fun m => m.1 % 128 == 0 && s.devRange m.1 m.2) &&
    (!g.learning || 3 ≤ mb.length) &&
    g.streams.all (fun t => t.kind != 7 || t.words.all (fun w => ringOk mb t.die w.2))

/-! ### Check 11 -/

/-- Bytes that a segment asks of a die's DRAM: plane loads and attention shares. -/
def segDemand (sc : Sched) (i die : Nat) : Nat :=
  140288 * sumL (((sc.seg i).streams.filter (fun t => t.kind == 6 && t.die == die)).map (fun t => t.words.length)) +
    sumL (((sc.windows [i]).filter (fun w => w.die == die)).map (fun w => w.share * w.slots))

def State.dramOk (s : State) (sc : Sched) : Bool :=
  (upFrom 0 sc.segs.length).all (fun i => (upFrom 0 s.dies).all (fun d => segDemand sc i d ≤ 4608 * (sc.seg i).slots))

/-! ### The checks in order -/

/-- The binding table: synchronisation bindings (handle, target), then memory bindings (base, length). -/
def syncBinds (b : Bytes) (n : Nat) : List (Nat × Nat) := (upFrom 0 n).map (fun i => (fieldB b (16 * i) 4, fieldB b (16 * i + 8) 8))
def memBinds (b : Bytes) (n m : Nat) : List (Nat × Nat) :=
  (upFrom n m).map (fun i => (fieldB b (16 * i) 8, fieldB b (16 * i + 8) 8))

/-- The first binding handle that fails, in ascending offset. -/
def State.bindCode (s : State) (tenant : Nat) : List (Nat × Nat) → Nat
  | [] => 0
  | b :: bs => if s.checkHandle tenant .sync b.1 ≠ 0 then s.checkHandle tenant .sync b.1 else s.bindCode tenant bs

/-- Does the image's signature verify under the Plaivo key (R322)? -/
def State.signed (s : State) (b : Bytes) : Bool :=
  Config.mldsaVerify s.ident.plaivoKey (Config.shake256_512 (b.take (b.length - sigPart)))
    (bytesAt b (b.length - sigPart) 3309)

/-- Checks 3 to 9 on an image: the check that fails and its code, or the schedule chosen. -/
def State.imageCheck (s : State) (c : Nat) (x : Ctx) (b : Bytes) (mb : List (Nat × Nat)) : (Nat × Nat) ⊕ Nat :=
  let g := imgOf b
  if !s.signed b then .inl (3, Err.signature)
  else if fieldB b 0 4 ≠ planMagic || fieldB b 4 2 ≠ 1 then .inl (4, Err.signature)
  else if !imageOk b then .inl (5, Err.length)
  else if !s.unitsHere g then .inl (6, Err.absentUnit)
  else if !s.ownsAll c g then .inl (7, Err.absentUnit)
  else if !s.bindingsOk g x.kv mb then .inl (8, Err.length)
  else match s.chooseSched g 0 with
    | none => .inl (9, Err.usesKnot)
    | some i =>
      if (s.schedLinks c (g.sched i)).any (fun u => s.shareBreach x.tenant c u) then .inl (10, Err.shareViolation)
      else if !s.dramOk (g.sched i) then .inl (11, Err.length)
      else if !s.hasFreeSlot .plan then .inl (12, Err.length)
      else .inr i

/-- A refused load (R332, R356). -/
def State.refusePlan (s : State) (f : Flight) (c check code : Nat) : State :=
  let pg := planPage f.home
  (((s.wr pg Reg.PLAN_LAST_LOAD (packW [(24, code), (20, check), (0, c)])).bump pg Reg.PLAN_REFUSE_COUNT).raise pg 1).failOp f
    code check

/-- The loaded plan of an image. -/
def State.planObj (s : State) (c : Nat) (b : Bytes) (role sched : Nat) (sb mb : List (Nat × Nat)) : PlanObj :=
  let us := s.schedLinks c ((imgOf b).sched sched)
  ⟨c, role, imgOf b, sb, mb, sched, (upFrom 0 s.dies).map (fun d => (d, maskOn us d)), us.map (fun u => (u.link, u.residue))⟩

/-- A successful load (R333). -/
def State.acceptPlan (s : State) (f : Flight) (c : Nat) (p : PlanObj) : State :=
  let i := s.nextSlot .plan
  let s1 := (s.takeSlot .plan f.tenant).setPlan i (some p)
  let s2 := s1.onCtx c (fun x =>
    if p.role = 0 then { x with primary := some i } else if p.role = 1 then { x with fallback := some i } else x)
  (s2.bump (planPage f.home) Reg.PLAN_LOAD_COUNT).passOp f (s2.handleOf .plan i)

/-- The image and the binding table have been read. -/
def State.loadImage (s : State) (f : Flight) (c : Nat) (x : Ctx) (b : Bytes) (sb mb : List (Nat × Nat)) : State :=
  match s.imageCheck c x b mb with
  | .inl e => s.refusePlan f c e.1 e.2
  | .inr i => s.acceptPlan f c (s.planObj c b (dField f.desc 0x24 1) i sb mb)

/-- Checks 1 and 2 of Table 11-8 after the header has been read; then the image and its table are read. -/
def State.loadHeader (s : State) (f : Flight) (c : Nat) (x : Ctx) (h : Bytes) : State :=
  let n := fieldB h 0x2C 1
  let m := fieldB h 0x2D 1
  let tab := dField f.desc 0x38 8
  let size := fieldB h 0x08 8
  let img := dField f.desc 0x28 8
  let tabIn := s.devRange tab (16 * (n + m))
  s.opBlock f (some c) tab (if tabIn then 16 * (n + m) else 0) (fun s t =>
    let sb := syncBinds t n
    if tabIn && s.bindCode f.tenant sb != 0 then s.refusePlan f c 1 (s.bindCode f.tenant sb)
    else if 2 < dField f.desc 0x24 1 || size < 3440 || dField f.desc 0x30 8 < size || !s.devRange img size || !tabIn then
      s.refusePlan f c 2 Err.length
    else s.opBlock f (some c) img size (fun s b => s.loadImage f c x b sb (memBinds t n m)))

def execPlanLoad (q ix : Nat) (s : State) : Host.Outcome State Fault Refusal :=
  ok (s.runFlight q ix 0x0B (fun s f =>
    let h := dHandle f.desc
    let img := dField f.desc 0x28 8
    if s.checkHandle f.tenant .ctx h ≠ 0 then s.refusePlan f (hIdx h % 1024) 1 (s.checkHandle f.tenant .ctx h)
    else if dField f.desc 0x30 8 = 0 then s.passOp f 0
    else match s.ctx (hIdx h) with
      | none => s.refusePlan f (hIdx h % 1024) 1 Err.staleHandle
      | some x =>
        if !s.devRange img 128 then s.refusePlan f (hIdx h) 2 Err.length
        else s.opBlock f (some (hIdx h)) img 128 (fun s hd => s.loadHeader f (hIdx h) x hd)))

end Sys2Proof.Machine
end

