-- ==== Sys2Proof/Machine/Plans.lean ====
section
/-!
DEFINITION. Running and stopping plans (R334 to R339), the gate events, the destruction of synchronisation objects (R355), escalations that software asks for (R169, R170), contexts
(R218, R339, R383, R388) and the bents given to them (R263, Table 11-11).
-/

namespace Sys2Proof.Machine

/-! ### The gate events -/

/-- Are the dies of a plan awake (R478)? -/
def State.diesAwake (s : State) (g : PlanImg) : Bool := (upFrom 0 8).all (fun n => !bitAt g.dies n || s.awake n)

/-- May the plan arrive at a gate in step slot `slot`: it is the next one, and the routers have carried out every slot before it? -/
def State.arrives (s : State) (l : Live) (slot : Nat) : Bool :=
  l.r.gate.isNone && (if l.r.inStep then slot == l.nextGate && s.routersPast l (l.fabSlot slot) else slot == 0)

/-! ### The end of a context (R339, R383, R388, Table 13-8) -/

/-- Descriptors that wait to act on entries of a context complete with STALE_HANDLE, found by the REQ block (R66, R339). -/
def State.staleDue (s : State) (c : Nat) : State :=
  let mine := fun (d : Due) => match s.reqEnt d.idx with
    | some x => x.ctx == c
    | none => false
  let s1 : State := (s.req.due.filter mine).foldl (fun (s : State) (d : Due) =>
    s.lateFail reqPage d.flight Err.staleHandle) s
  { s1 with req := { s1.req with due := s1.req.due.filter (fun d => !mine d) } }

/-- Live requests end CANCELLED, and every entry becomes FREE. -/
def State.freeReqs (s : State) : List (Nat × ReqEnt) → State
  | [] => s
  | (i, x) :: xs => ((if x.live then s.endReq i Rq.cancelled 0 false else s).freeReq i).freeReqs xs

/-- Unload every plan of a context. -/
def State.unloadAll (s : State) (c : Nat) : State :=
  s.plans.foldl (fun (s : State) (e : Nat × Option PlanObj) => match e.2 with
    | some p => if p.ctx = c then s.unloadPlan e.1 else s
    | none => s) s

/-- A generation's work stops: its descriptor, when the generation was not ready, completes with a code that the WGT page of its
home die latches (R66, R523), and the generation is freed. -/
def State.dropGen (s : State) (i : Nat) (g : Gen) (code : Nat) : State :=
  (if g.readyAt.isNone then
    s.lateFail (diePage .wgt (((s.flight g.flight.1 g.flight.2).map (fun f => f.home)).getD 0)) g.flight code
   else s).freeGen i

/-- Every generation of a context goes, fetches and seals for it stop, and a seal that its own working set feeds stops. -/
def State.dropGens (s : State) (c : Nat) : State :=
  let s1 : State := s.gens.foldl (fun (s : State) (e : Nat × Option Gen) => match e.2 with
    | some g =>
      let own := match s.ctx c with
        | some x => x.sealOp.any (fun o => o.gen == e.1)
        | none => false
      if g.ctx = c || own then s.dropGen e.1 g Err.staleHandle else s
    | none => s) s
  { s1 with ctxs := s1.ctxs.map (fun (e : Nat × Option Ctx) => (e.1, e.2.map (fun x =>
      if x.sealOp.any (fun o => o.recv == c) then { x with sealOp := none } else x))) }

/-- The tag that the device writes in PAGE_OWNER. -/
def ownerTag (x : Option (Nat × Nat)) : W32 :=
  match x with
  | some (tenant, c) => packW [(31, 1), (27, tenant % 16), (16, c % 1024)]
  | none => 0

/-- Pages of a bent. -/
def bentPages (die bent : Nat) : List Page :=
  [⟨.bent, die, bent, 0⟩, ⟨.ledg, die, bent, 0⟩, ⟨.cal, die, bent, 0⟩] ++
    (upFrom 0 4).flatMap (fun a => [⟨.arr, die, bent, a⟩, ⟨.shim, die, bent, a⟩])

/-- Change a bent's owner and the PAGE_OWNER of its pages. -/
def State.setOwner (s0 : State) (die bent : Nat) (c : Option Nat) : State :=
  let s := s0.installBent die bent
  let tag := ownerTag (c.bind (fun i => (s.ctx i).map (fun x => (x.tenant, i))))
  (bentPages die bent).foldl (fun (s : State) (p : Page) => s.wr p Reg.PAGE_OWNER tag)
    { s with owners := put none s.owners (bentKey die bent) c }

/-- Frames in transit for a context that is gone belong to no context any more. -/
def State.orphanFrames (s : State) (c : Nat) : State :=
  { s with pools := s.pools.map (fun p => { p with held := p.held.map (fun (h : Nat × Option Holder) =>
      (h.1, h.2.map (fun x => if x.ctx = c then { x with ctx := 1024, orphan := true } else x))) }) }

/-- Work of the gradient units for a context that is gone stops. -/
def State.dropFolds (s : State) (c : Nat) : State :=
  ({ s with folds := s.folds.filter (fun f => f.ctx != c) } : State).dropBanks c none

/-- The context goes: its requests, plans, generations, keys and bents, and its slot. -/
def State.destroyCtx (s : State) (c : Nat) (fl : Nat × Nat) : State :=
  let s1 := (s.staleDue c).freeReqs (s.reqsOf c)
  let s2 := ((((s1.unloadAll c).dropGens c).dropWork c).dropFolds c).orphanFrames c
  let s3 : State := (s2.bentsOf c).foldl (fun (s : State) (b : Nat) => s.setOwner (b / 128) (b % 128) none) s2
  ((s3.setCtx c none).dropSlot .ctx c).finish fl.1 fl.2 0 0 0

/-- Does a WEIGHT_LOAD that validated the context's handle still wait for its array or load it? -/
def State.ctxLoading (s : State) (c : Nat) : Bool :=
  s.que.flights.any (fun g => g.phase == .waiting && dOpcode g.desc == 0x0F && hIdx (dHandle g.desc) == c)

/-- After an abandonment: the rest of a CONTEXT_DESTROY that waited for it. While loads that validated the handle run, it is
executed again later (R60). -/
def State.thenDestroy (s : State) (l : Live) : State :=
  match l.r.destroy with
  | some fl =>
    if s.running l.c then s
    else if s.ctxLoading l.c then s.onFlight fl.1 fl.2 (fun f => { f with phase := .started })
    else s.destroyCtx l.c fl
  | none => s

/-! ### Gate events -/

def execGateArrival (ctx slot t : Nat) (s : State) : Host.Outcome State Fault Refusal :=
  ok (s.whenUp (fun s => match s.live ctx with
    | none => s
    | some l =>
      if s.arrives l slot && s.diesAwake l.p.img && !s.fab.stalled then
        ((s.at t).arriveAt ctx slot (s.at t).time (!l.r.inStep || slot == l.stepSlots) false).thenDestroy l
      else s))

/-- Does the plan wait at a gate to which it had come by `t`? -/
def Live.waits (l : Live) (t : Nat) : Bool := l.r.gate.isSome && !l.r.released && decide (l.r.arrival ≤ t)

/-- GATE_RELEASE. A term's object that cannot be read faults the context (Table 14-11). -/
def execGateRelease (ctx : Nat) (outs : List ReqOut) (seen : SeenAt) (s : State) : Host.Outcome State Fault Refusal :=
  ok (s.whenUp (fun s => match s.live ctx with
    | none => s
    | some l =>
      let s1 := s.at seen.t
      if !l.waits s1.time then s
      else if !l.hasTerms then s1.tryRelease l outs s1.time
      else
        let s2 := s1.sramSeen syncPage seen.sram (some ctx)
        if sramLost seen.sram then s2.abandon l s2.time Err.poison true else s2.tryRelease l outs s2.time))

def execGateDeadline (ctx t : Nat) (s : State) : Host.Outcome State Fault Refusal :=
  ok (s.whenUp (fun s => match s.live ctx with
    | none => s
    | some l => if l.waits (s.at t).time then (s.at t).tryDeadline l (s.at t).time else s))

def execPlanResume (ctx fslot : Nat) (s : State) : Host.Outcome State Fault Refusal :=
  ok (s.whenUp (fun s => match s.live ctx with
    | none => s
    | some l =>
      if l.r.gate.isSome && l.r.released && decide (l.fabSlot l.slot ≤ fslot) && s.routersBefore l ((fslot / 64 + 1) * 64) then
        s.resumeAt l fslot
      else s))

/-! ### PLAN_RUN, PLAN_STOP, PLAN_UNLOAD (R334, R339, R485) -/

/-- A validated PLAN_RUN starts, or waits in flight for the context's running plan to stop. -/
def State.launch (s : State) (f : Flight) : State :=
  let i := hIdx (dHandle f.desc)
  match s.plan i with
  | none => s.failOp f Err.staleHandle 0
  | some p => if s.running p.ctx then s.waitFlight f.q f.ix else s.startRun i p (f.q, f.ix)

def execPlanRun (q ix : Nat) (s : State) : Host.Outcome State Fault Refusal :=
  ok (s.runFlight q ix 0x0D (fun s f =>
    if s.tripLatched then s.failOp f Err.notReady 0
    else s.checked f (s.checkHandle f.tenant .plan (dHandle f.desc)) (s.launch f)))

/-- A stop is asked of a running plan: it takes effect at a step-boundary gate. -/
def State.askStop (s : State) (c : Nat) (f : Flight) : State :=
  (s.onRun c (fun r => { r with
    stop := r.stop ++ [(f.q, f.ix)], stopAt := if r.stopAt.isNone then some s.time else r.stopAt })).waitFlight f.q f.ix

def execPlanStop (q ix : Nat) (s : State) : Host.Outcome State Fault Refusal :=
  ok (s.runFlight q ix 0x0E (fun s f =>
    let h := dHandle f.desc
    s.checked f (s.checkHandle f.tenant .ctx h)
      (if s.running (hIdx h) then s.askStop (hIdx h) f else s.passOp f 0)))

/-- Does the context run this plan? -/
def State.runsPlan (s : State) (c i : Nat) : Bool :=
  match s.ctx c with
  | some x => match x.run with
    | some r => r.plan == i
    | none => false
  | none => false

def execPlanUnload (q ix : Nat) (s : State) : Host.Outcome State Fault Refusal :=
  ok (s.runFlight q ix 0x0C (fun s f =>
    let h := dHandle f.desc
    s.checked f (s.checkHandle f.tenant .plan h)
      (match s.plan (hIdx h) with
       | none => s.failOp f Err.staleHandle 0
       | some p => if s.runsPlan p.ctx (hIdx h) then s.askStop p.ctx f else (s.unloadPlan (hIdx h)).passOp f 0)))

/-! ### SYNC_DESTROY (R60, R355) -/

/-- Once every operation that validated the handle has completed (R60), the waits on the object are evaluated against its value, and
it goes. -/
def execSyncDestroy (q ix : Nat) (s : State) : Host.Outcome State Fault Refusal :=
  ok (s.runFlight q ix 0x05 (fun s f =>
    let h := dHandle f.desc
    s.checked f (s.checkHandle f.tenant .sync h)
      (if s.syncInUse f h then s
       else ((((s.settleHeads h (s.que.queues.map (fun e => e.1))).noteAllTerms).setSync (hIdx h) 0).dropSlot .sync (hIdx h)).passOp f 0)))

/-! ### PLAN_ESC (Table 11-19) -/

/-- A write of PLAN_ESC through a die's PLAN page: cause 1 adds the selected layer, cause 0 removes it, at the next
step-boundary gate. -/
def State.askEsc (s : State) (die cause : Nat) : State :=
  let pg := planPage die
  s.onCtx (s.fld pg Reg.PLAN_CTX_SEL 9 0) (fun x => { x with
    escPend := x.escPend ++ [(s.fld pg Reg.PLAN_ESC_SEL 9 0, cause, s.time)] })

def execPlanEscAdd (die : Nat) (s : State) : Host.Outcome State Fault Refusal :=
  ok (s.hostPage (diePage .plan die) (fun s => s.askEsc die 1))
def execPlanEscRemove (die : Nat) (s : State) : Host.Outcome State Fault Refusal :=
  ok (s.hostPage (diePage .plan die) (fun s => s.askEsc die 0))

/-! ### CONTEXT_CREATE (R217, R218, R388) -/

/-- A group descriptor (Table 07-3). -/
def groupOf (b : Bytes) (i : Nat) : KvGroup :=
  let d := b.drop (64 + 16 * i)
  ⟨fieldB d 0 1 == 1, fieldB d 1 1, fieldB d 2 1, fieldB d 3 1, fieldB d 4 2, fieldB d 6 2, fieldB d 8 4, fieldB d 12 4⟩

/-- A KV record (Tables 07-2 and 07-3). -/
def kvRecOf (b : Bytes) : KvRec :=
  ⟨fieldB b 2 2, fieldB b 4 4, fieldB b 8 4, fieldB b 0xC 4, fieldB b 0x10 8, fieldB b 0x18 4,
    (upFrom 0 (fieldB b 0 2)).map (groupOf b)⟩

/-- Check 3. -/
def groupSound (kind : Nat) (g : KvGroup) : Bool :=
  kind ≤ 1 && 1 ≤ g.layers && g.layers ≤ 16 && 1 ≤ g.heads && g.heads ≤ 64 && 16 ≤ g.dim && g.dim ≤ 256 && g.dim % 16 == 0
/-- Check 4. -/
def slotSound (g : KvGroup) : Bool :=
  g.slotBytes % 16 == 0 && g.layers * g.heads * g.entryBytes ≤ g.slotBytes && g.slotBytes ≤ 4096
/-- Check 5. -/
def ringSound (k : KvRec) : Bool :=
  let rings := k.groups.filter (fun g => g.ring)
  rings.isEmpty || (rings.all (fun g => g.slotBytes == (rings.headD emptyGroup).slotBytes) && 1 ≤ k.window &&
    k.specMax + k.window ≤ k.ringCap)
/-- Two ranges of entries that do not overlap. -/
def apart (k : KvRec) (g h : KvGroup) : Bool :=
  g.dirOffset + g.entries k.window ≤ h.dirOffset || h.dirOffset + h.entries k.window ≤ g.dirOffset
def pairwiseApart (k : KvRec) : List KvGroup → Bool
  | [] => true
  | g :: gs => gs.all (apart k g) && pairwiseApart k gs
/-- Check 6. -/
def dirSound (k : KvRec) : Bool :=
  k.groups.all (fun g => g.dirOffset + g.entries k.window ≤ k.dirEntries) && pairwiseApart k k.groups

/-- Checks 2 to 6 of Table 07-4 on a record: the number of the first that fails with its code, or 0. -/
def State.kvCheck (s : State) (b : Bytes) (k : KvRec) : Nat × Nat :=
  if !k.groups.all (fun g => s.dieOk g.home) then (2, Err.absentUnit)
  else if !k.groups.zipIdx.all (fun g => groupSound (fieldB b (64 + 16 * g.2) 1) g.1) then (3, Err.length)
  else if !k.groups.all slotSound then (4, Err.length)
  else if !ringSound k then (5, Err.length)
  else if !dirSound k then (6, Err.length)
  else (0, 0)

/-- A KV record check fails: latched on the KVP page of the queue's home die (R218, R523). -/
def State.refuseKv (s : State) (f : Flight) (check code : Nat) : State :=
  (s.latchErr (kvpPage f.home) code none check 0).finish f.q f.ix code check 0

/-- A new context: no plan, no requests, a drawn key pair and KV key. -/
def newCtx (tenant created : Nat) (kv : KvRec) (key kvKey : Bytes) : Ctx where
  tenant := tenant
  created := created
  kv := kv
  key := key
  kvKey := kvKey
  primary := none
  fallback := none
  run := none
  lastError := 0
  lastPlan := 0
  lastStrict := false
  lastSched := 0
  steps := 0
  esc := []
  escUnavail := []
  escPend := []
  faulted := none
  faultState := false
  strikes := []
  curGen := 0
  waited := []
  genQueue := []
  spillSeq := 0
  farFree := []
  farNext := 0
  sealOp := none

/-- The record has been read: its checks, then a free slot (R519). -/
def State.createCtx (s : State) (f : Flight) (b : Bytes) : State :=
  let k := kvRecOf b
  let e := s.kvCheck b k
  if e.1 ≠ 0 then s.refuseKv f e.1 e.2
  else if !s.hasFreeSlot .ctx then s.failOp f Err.length 0
  else
    let i := s.nextSlot .ctx
    let s1 := (s.spend.takeSlot .ctx f.tenant).setCtx i (some (newCtx f.tenant s.time k (Config.mlkemDraw s.free)
      (Config.freshBytes s.free 32)))
    s1.passOp f (s1.handleOf .ctx i)

/-- The header has been read: check 1, then the whole record is read. -/
def State.readKv (s : State) (f : Flight) (h : Bytes) : State :=
  let n := fieldB h 0 2
  let a := dField f.desc 0x20 8
  if n = 0 || 64 < n || dField f.desc 0x28 8 < 64 + 16 * n || 255 < fieldB h 2 2 || !s.devRange a (64 + 16 * n) then
    s.refuseKv f 1 Err.length
  else s.opBlock f none a (64 + 16 * n) (fun s b => s.createCtx f b)

def execContextCreate (q ix : Nat) (s : State) : Host.Outcome State Fault Refusal :=
  ok (s.runFlight q ix 0x08 (fun s f =>
    let a := dField f.desc 0x20 8
    let n := dField f.desc 0x28 8
    if n = 0 then s.passOp f 0
    else if n < 64 || !s.devRange a 64 then s.refuseKv f 1 Err.length
    else s.opBlock f none a 64 (fun s h => s.readKv f h)))

/-! ### CONTEXT_DESTROY (R339) -/

/-- Has another CONTEXT_DESTROY of the context begun? -/
def State.dying (s : State) (c : Nat) : Bool :=
  match s.ctx c with
  | some x => x.run.any (fun r => r.destroy.isSome)
  | none => true

/-- A plan that waits at a gate is abandoned there at once; one that runs is abandoned at its next gate. -/
def State.destroyRunning (s : State) (c : Nat) (f : Flight) : State :=
  let s1 := (s.onRun c (fun r => { r with destroy := some (f.q, f.ix) })).waitFlight f.q f.ix
  match s1.live c with
  | none => s1
  | some l => if l.waits s1.time then (s1.abandon l s1.time Err.staleHandle false).thenDestroy l else s1

/-- CONTEXT_DESTROY takes effect once the loads that validated the handle have completed (R60): until then it is not executed. -/
def execContextDestroy (q ix : Nat) (s : State) : Host.Outcome State Fault Refusal :=
  ok (s.runFlight q ix 0x09 (fun s f =>
    let h := dHandle f.desc
    s.checked f (s.checkHandle f.tenant .ctx h)
      (if s.dying (hIdx h) then s.failOp f Err.staleHandle 0
       else if s.running (hIdx h) then s.destroyRunning (hIdx h) f
       else if s.ctxLoading (hIdx h) then s
       else s.destroyCtx (hIdx h) (f.q, f.ix))))

/-! ### BENT_ASSIGN and the clearing of a bent (Table 11-11, R263) -/

def execBentAssign (q ix : Nat) (s : State) : Host.Outcome State Fault Refusal :=
  ok (s.runFlight q ix 0x0A (fun s f =>
    let h := dHandle f.desc
    let die := dField f.desc 0x24 1
    let bent := dField f.desc 0x25 1
    if h ≠ 0 && s.checkHandle f.tenant .ctx h != 0 then s.failOp f (s.checkHandle f.tenant .ctx h) 0
    else if !s.dieOk die || 128 ≤ bent then s.failOp f Err.absentUnit 0
    else if s.bentIsKnot die bent then s.failOp f Err.absentUnit 0x8000
    else s.waitFlight q ix))

/-- Does a stream of a plan use a bent: one of its arrays, ledgers or vector units, a unit that it serves, or its planes? -/
def Stream.uses (t : Stream) (die bent : Nat) : Bool :=
  t.die == die &&
    (if t.kind = 1 || t.kind = 2 || t.kind = 3 then t.unit == bent
     else if t.kind = 4 || t.kind = 5 then unitBent t.unit ≤ bent && bent < unitBent t.unit + 8
     else if t.kind = 6 then t.words.any (fun w => bits w.2 45 39 == bent)
     else false)

def SwapRec.uses (w : SwapRec) (die bent : Nat) : Bool :=
  w.die == die && (if w.kind = 0 then w.unit == bent else unitBent w.unit ≤ bent && bent < unitBent w.unit + 8)

def PlanImg.uses (g : PlanImg) (die bent : Nat) : Bool :=
  g.streams.any (fun t => t.uses die bent) || g.swapRecs.any (fun w => w.uses die bent)

/-- Does a loaded plan of the bent's present owner use it? -/
def State.bentUsed (s : State) (die bent : Nat) : Bool :=
  match s.owner die bent with
  | none => false
  | some c => s.plans.any (fun e => match e.2 with
    | some p => p.ctx == c && p.img.uses die bent
    | none => false)

/-- An array as the clearing leaves it: planes zero with tag 0x0000 and with them scales and residual lists, no load, an empty
event store; coefficient banks and calibration stay. -/
def Arr.cleared (x : Arr) : Arr :=
  { x with
    plane0 := Plane.zero
    plane1 := Plane.zero
    staged := 0
    loadError := 0
    rows := 0
    poisoned := false
    loading := none
    waiting := []
    swapWaiting := false
    bankState := 0
    passes := []
    store := []
    claims := []
    escPending := false
    scores := []
    soft := [] }

/-- Clear one array: its loads are abandoned with ABSENT_UNIT, which its page latches and their descriptors complete with
(R66, R263). -/
def State.clearArr (s : State) (die bent a : Nat) : State :=
  let A := s.arr die bent a
  let loads := A.loading.toList ++ A.waiting
  let s1 : State := loads.foldl (fun (s : State) (r : LoadReq) =>
    (s.latchErr (aPage die bent a) Err.absentUnit (some r.ctx) 0 0).endLoad r Err.absentUnit) s
  (s1.setArr die bent a { A with loading := none, waiting := [] }).drainEnd die bent a |>.onArr die bent a Arr.cleared

def State.clearArrs (s : State) (die bent : Nat) : List Nat → State
  | [] => s
  | a :: as => (s.clearArr die bent a).clearArrs die bent as

/-- The gradient unit that serves a bent (R24). -/
def unitOf (bent : Nat) : Nat := bent / 16 * 2 + bent % 16 / 8

/-- The bent is cleared, with it what the gradient unit that serves it has accumulated, and passes to its new owner. -/
def State.clearBent (s : State) (die bent : Nat) (c : Option Nat) : State :=
  (((s.clearArrs die bent [0, 1, 2, 3]).setBent die bent Bent.reset).clearGrad die (unitOf bent)).setOwner die bent c

/-- A waiting BENT_ASSIGN executes once no loaded plan of the present owner uses the bent. -/
def State.bentClear (s : State) (f : Flight) : State :=
  let h := dHandle f.desc
  let die := dField f.desc 0x24 1
  let bent := dField f.desc 0x25 1
  if s.bentUsed die bent || !s.awake die then s
  else if h = 0 then (s.clearBent die bent none).passOp f 0
  else if s.checkHandle f.tenant .ctx h ≠ 0 then s.failOp f (s.checkHandle f.tenant .ctx h) 0
  else (s.clearBent die bent (some (hIdx h))).passOp f 0

def execBentClear (q ix : Nat) (s : State) : Host.Outcome State Fault Refusal :=
  ok (match s.flight q ix with
    | some f => if f.phase = .waiting && dOpcode f.desc == 0x0A then s.whenUp (fun s => s.bentClear f) else s
    | none => s)

end Sys2Proof.Machine
end

