-- ==== Sys2Proof/Machine/Transport.lean ====
section
/-!
DEFINITION. The Ahnaz transport (R453 to R467): channels and their pairing, packets, sequence and credits, retry and failover,
and the operations of Table 15-7.
-/

namespace Sys2Proof.Machine

/-! ### Ports and channels -/

def State.chan (s : State) (i : Nat) : Option Channel := look none s.chans i
def State.setChan (s : State) (i : Nat) (x : Option Channel) : State := { s with chans := put none s.chans i x }
def State.onChan (s : State) (i : Nat) (f : Channel → Channel) : State :=
  match s.chan i with
  | some x => s.setChan i (some (f x))
  | none => s

def State.port (s : State) (p : Nat) : Port := look Port.reset s.ports p
def State.setPort (s : State) (p : Nat) (x : Port) : State := { s with ports := put Port.reset s.ports p x }
/-- Is a port UP, on 8 lanes or on 7 (R452)? -/
def State.portUp (s : State) (p : Nat) : Bool := (s.port p).state == 2 || (s.port p).state == 3
/-- Page of global port `p`: port p % 8 of die p / 8 (R442). -/
def portPage (p : Nat) : Page := unitPage .port (p / 8) (p % 8)
def State.portOk (s : State) (p : Nat) : Bool := p < 8 * s.dies
/-- PORT_MAC: derived from the device identity (Table 15-11); how, the configuration image fixes. -/
def State.portMac (s : State) (p : Nat) : Nat := (s.ident.portBase + p) % 2 ^ 48
def State.etherType (s : State) (p : Nat) : Nat := s.fld (portPage p) Reg.PORT_CFG 15 0

/-- Lowest port of a mask, and the die that it is on: the channel's home die (R454). -/
def lowBit (m n : Nat) : Nat := ((upFrom 0 n).find? (fun i => bitAt m i)).getD 0
def Channel.home (x : Channel) : Nat := lowBit x.mask 32 / 8

/-- The next UP port of a mask in ascending order after port `p`, wrapping at 31; `p` itself comes last (R459). -/
def State.nextPort (s : State) (mask p : Nat) : Option Nat :=
  (upFrom (p + 1) 32).map (fun i => i % 32) |>.find? (fun i => bitAt mask i && s.portUp i)

/-- The first live port of a mask. -/
def State.firstPort (s : State) (mask : Nat) : Option Nat := (upFrom 0 32).find? (fun i => bitAt mask i && s.portUp i)

/-! ### Sending -/

/-- Cells that a packet takes (R460). -/
def pktCells (p : Pkt) : Nat := ceilDiv (40 + p.data.length + 8 * p.scribes.length + 4) 256

/-- Bytes of the Ethernet frame of a packet, from destination address to FCS. -/
def pktFrame (p : Pkt) (tagged : Bool) : Nat :=
  14 + (if tagged then 4 else 0) + 40 + p.data.length + 8 * p.scribes.length + 4 + 4

/-- A packet of a channel to its peer, its acknowledgement and grant still to be filled in. -/
def Channel.pkt (x : Channel) (i gen kind vc : Nat) : Pkt where
  mac := 0
  kind := kind
  vc := vc
  grantVc := 0
  last := false
  dst := x.peer
  dstEpoch := x.peerEpoch
  src := i
  srcEpoch := gen
  seq := 0
  ack := 0
  grant := 0
  addr := 0
  len := 0
  op := 0
  data := []
  scribes := []
  crcOk := true
  key := 0
  offer := []

/-- Handle generation of a channel. -/
def State.chanGen (s : State) (i : Nat) : Nat := (s.slot .chan i).gen

/-- A frame leaves a port. -/
def State.frameOut (s : State) (port mac vlan : Nat) (p : Pkt) : State :=
  ({ s with sent := s.sent ++ [⟨port, mac, vlan, s.etherType port, { p with mac := s.portMac port }⟩] } : State).add64
    (portPage port) Reg.PORT_TX_BYTES (pktFrame p (bitAt vlan 15))

/-- A channel sends a packet, when its port is UP: every packet carries the acknowledgement number and the grant of one VC in
turn (R457, R460). -/
def State.emit (s : State) (i : Nat) (p : Pkt) : State :=
  match s.chan i with
  | none => s
  | some x =>
    if s.portUp x.port then
      let g := x.grantTurn
      let q := { p with ack := x.expect, grantVc := g, grant := nth 0 x.freed g }
      (s.setChan i (some { x with grantTurn := (g + 1) % 8, unackedRx := 0 })).frameOut x.port x.peerMac x.vlan q
    else s

def State.emitAll (s : State) (i : Nat) : List Pkt → State
  | [] => s
  | p :: ps => (s.emit i p).emitAll i ps

/-- A control packet: OPEN_ACK, ACK, NAK or CLOSE. -/
def State.control (s : State) (i kind : Nat) : State :=
  match s.chan i with
  | none => s
  | some x => s.emit i { x.pkt i (s.chanGen i) kind 0 with seq := if kind = 2 then x.nextSeq else 0 }

/-- OPEN and OPEN_ACK tell the window length, the key and the cells offered. -/
def State.hello (s : State) (i kind : Nat) : State :=
  match s.chan i with
  | none => s
  | some x => s.emit i { x.pkt i (s.chanGen i) kind 0 with addr := x.bytes, key := x.key, offer := x.rxLimit }

/-- Resend every unacknowledged packet from the oldest onward; resent copies take no credit. -/
def State.resend (s : State) (i : Nat) : State :=
  match s.chan i with
  | none => s
  | some x => s.emitAll i x.unacked

/-! ### The end of operations and channels -/

/-- The operations of a channel end with a code: descriptors complete, and a registration that fetches over the channel ends. -/
def State.endOps (s : State) (i code : Nat) : State :=
  match s.chan i with
  | none => s
  | some x =>
    let s1 : State := x.ops.foldl (fun (s : State) (o : TpOp) => match o.flight with
      | some f => s.lateFail (portPage x.port) f code
      | none => s) s
    let s2 := s1.onChan i (fun x => { x with ops := [], queued := [] })
    s2.gens.foldl (fun (s : State) (e : Nat × Option Gen) => match e.2 with
      | some g => if !g.isSeal && g.readyAt.isNone && g.chan == i then s.dropGen e.1 g code else s
      | none => s) s2

/-- The channel goes: its operations complete with STALE_HANDLE, its credits and cells return, its handle dies. -/
def State.dropChan (s : State) (i : Nat) : State :=
  match s.chan i with
  | none => s
  | some x =>
    let s1 := s.endOps i Err.staleHandle
    let s2 := if x.paired then s1 else s1.lateFail (portPage x.port) x.flight Err.staleHandle
    (s2.setChan i none).dropSlot .chan i

/-! ### Failover (R459) -/

/-- A channel moves to another port: it resends there, and the old port counts the failover. -/
def State.moveChan (s : State) (i p : Nat) : State :=
  match s.chan i with
  | none => s
  | some x =>
    if x.port = p then s
    else
      (((s.setChan i (some { x with port := p })).bump (portPage x.port) Reg.PORT_FAILOVER_COUNT).raise (portPage x.port)
        4).resend i

/-- After its port went down, or after retry_limit rounds without progress: the next UP port, or TIMEOUT of every operation in
flight when no port of the mask is UP. -/
def State.failOver (s : State) (i : Nat) : State :=
  match s.chan i with
  | none => s
  | some x => match s.nextPort x.mask x.port with
    | some p => s.moveChan i p
    | none => s.endOps i Err.timeout

/-- A port's state has changed: channels whose port is not UP fail over. -/
def State.rehome (s : State) : List (Nat × Option Channel) → State
  | [] => s
  | e :: es =>
    (match e.2 with
      | some x => if s.portUp x.port then s else s.failOver e.1
      | none => s).rehome es

/-- A port changes its state. -/
def State.portTo (s : State) (p st : Nat) : State :=
  let x := s.port p
  if x.state = st then s
  else
    let s1 := (s.setPort p { x with state := st }).raise (portPage p) 1
    s1.rehome s1.chans

/-! ### Credits and acknowledgement (R457, R460) -/

def addNth (l : List Nat) (i n : Nat) : List Nat := l.set i (nth 0 l i + n)
def subNth (l : List Nat) (i n : Nat) : List Nat := l.set i (nth 0 l i - n)

/-- Distance from a sequence number to another, modulo 2³². -/
def seqFrom (a b : Nat) : Nat := (b + 2 ^ 32 - a % 2 ^ 32) % 2 ^ 32

/-- A grant: the cells that the peer has freed on a VC since the last one come back. -/
def Channel.take (x : Channel) (v g : Nat) : Channel :=
  let n := min (seqFrom (nth 0 x.granted v) g) (nth 0 x.txOut v)
  { x with granted := x.granted.set v g, txAvail := addNth x.txAvail v n, txOut := subNth x.txOut v n }

/-- Is a kept packet covered by an acknowledgement that names `a` as the next number expected? -/
def covered (a : Nat) (p : Pkt) : Bool := 0 < seqFrom p.seq a && seqFrom p.seq a < 2 ^ 31

/-- Moves that delivered poisoned blocks count them (R432). -/
def State.endMove (s : State) (f : Nat × Nat) (n : Nat) : State :=
  let home := match s.flight f.1 f.2 with
    | some fl => fl.home
    | none => 0
  let s1 := if n = 0 then s else (s.bumpN (diePage .scrb home) Reg.SCRB_POISON_SET_COUNT n).raise (diePage .scrb home) 3
  s1.finish f.1 f.2 0 (min n 0xFFFF) 0

/-- An operation of a channel completes. -/
def State.endOp (s : State) (i : Nat) (o : TpOp) : State :=
  let s1 := s.onChan i (fun x => { x with ops := x.ops.filter (fun q => q.op != o.op) })
  match o.flight with
  | some f => s1.endMove f o.poisoned
  | none => s1

/-- Writes whose last packet is among the acknowledged ones complete (R463). -/
def State.endWrites (s : State) (i : Nat) : List Pkt → State
  | [] => s
  | p :: ps =>
    (match s.chan i with
      | none => s
      | some x => match x.ops.find? (fun (o : TpOp) => o.op == p.op && !o.read) with
        | some o => if p.kind = 3 && p.last then s.endOp i o else s
        | none => s).endWrites i ps

/-- The acknowledgement and grant that a valid packet carries act. -/
def State.ackGrant (s : State) (i : Nat) (p : Pkt) (t : Nat) : State :=
  match s.chan i with
  | none => s
  | some x =>
    let done := x.unacked.filter (covered p.ack)
    let y := (x.take p.grantVc p.grant)
    let z := if done.isEmpty then y
      else { y with unacked := y.unacked.filter (fun q => !covered p.ack q), rounds := 0, progress := t }
    (s.setChan i (some z)).endWrites i done

/-! ### Receiving (R457, R463 to R465) -/

/-- The channel and epochs that a packet names are those of a channel of this module and its peer. -/
def State.epochsHold (s : State) (p : Pkt) : Bool :=
  match s.chan p.dst with
  | none => false
  | some x => (s.slot .chan p.dst).live && s.chanGen p.dst == p.dstEpoch &&
      (p.kind == 1 || (x.peer == p.src && x.peerEpoch == p.srcEpoch))

/-- A CLOSE in answer to a packet, from the port it came to. -/
def State.closeTo (s : State) (port : Nat) (p : Pkt) : State :=
  if s.portUp port then
    s.frameOut port p.mac 0 { p with
      kind := 2, vc := 0, last := false, dst := p.src, dstEpoch := p.srcEpoch, src := p.dst, srcEpoch := p.dstEpoch
      seq := p.ack, ack := p.seq, grantVc := 0, grant := 0, addr := 0, len := 0, op := 0, data := [], scribes := []
      key := 0, offer := [] }
  else s

/-- One NAK per gap, with the expected number. -/
def State.nak (s : State) (i : Nat) : State :=
  match s.chan i with
  | none => s
  | some x => ((s.control i 7).bump (portPage x.port) Reg.PORT_NAK_COUNT).onChan i (fun x => { x with nakSent := true })

/-- Accept a packet in sequence: its cells are taken and freed again once its data has left the buffer, which for this model is
the same operation. -/
def State.acceptPkt (s : State) (i : Nat) (p : Pkt) : State :=
  s.onChan i (fun x => { x with
    expect := (x.expect + 1) % 2 ^ 32, nakSent := false, unackedRx := x.unackedRx + 1
    freed := x.freed.set p.vc ((nth 0 x.freed p.vc + pktCells p) % 2 ^ 32) })

/-- At least every 16 accepted packets an ACK is sent. -/
def State.ackDue (s : State) (i : Nat) : State :=
  match s.chan i with
  | none => s
  | some x => if 16 ≤ x.unackedRx then s.control i 6 else s

/-- The receiver writes a whole block with the scribe it carries, after its CRC check (R427, R465): whether it arrives
poisoned, and the state after. -/
def State.rxBlock (s : State) (home addr : Nat) (bs : Bytes) (scr : W64) : Bool × State :=
  let pg := diePage .scrb home
  let fl := scribeFlags scr
  let free := bitAt fl 4 || Flag.isPoison fl
  let bad := !free && crc32c bs != scribeCrc scr
  let s1 := if free then s else s.bump pg Reg.SCRB_CHECK_COUNT
  let s2 := if bad then s1.crcTwice home 3 addr (crc32c bs) scr else s1
  let poison := bad || Flag.isPoison fl
  let s3 := s2.writeBytes addr bs
  (poison, s3.onMem (fun m =>
    if poison then ((cwsOf addr 4096).foldl (fun m c => m.poisonCw c) m).setScribe (addr / 4096)
      (mkScribe (scribeGen scr) (scribeProducer scr) (fl ||| 1) (scribeCrc scr))
    else m.setScribe (addr / 4096) scr))

/-- Write a packet's payload at `addr`: scribed whole blocks with their scribes, the rest under R426 with producer kind 6. It
answers how many blocks arrive poisoned. -/
def State.rxWrite (s : State) (home addr : Nat) (bs : Bytes) : List W64 → Nat × State
  | [] => (0, if bs.isEmpty then s else s.unitWrite addr bs 0 (producer home 6 0) 0)
  | w :: ws =>
    let part := bs.take 4096
    let r := if addr % 4096 = 0 then s.rxBlock home addr part w
      else (Flag.isPoison (scribeFlags w), s.unitWrite addr part 0 (producer home 6 0) (scribeFlags w % 16))
    let rest := r.2.rxWrite home (addr + 4096) (bs.drop 4096) ws
    (b2n r.1 + rest.1, rest.2)

/-- A notifying write is complete in the window: the notify object gains 1. -/
def State.notify (s : State) (x : Channel) : State :=
  if x.notify ≠ 0 && s.checkHandle x.tenant .sync x.notify == 0 then s.syncAdd (hIdx x.notify) 1 else s

/-- Flags and scribes of what is read for a packet: whole blocks of an aligned range carry theirs. -/
def State.readScribes (s : State) (a : Nat) : Nat → List W64
  | 0 => []
  | n + 1 => s.mem.scribeOf (a / 4096) :: s.readScribes (a + 4096) n

/-- Read `n` bytes at `a` for packets to offset `off`: the bytes, the scribes of whole blocks when source and destination are
block aligned, the poisoned blocks, and the state after. -/
def State.readOut (s : State) (a off n : Nat) : Bytes × List W64 × Nat × State :=
  let r := s.unitRead a n
  let k := if a % 4096 = 0 && off % 4096 = 0 then n / 4096 else 0
  let bad := ((blksOf a n).filter (fun b => Flag.isPoison (s.unitRead (max a (b * 4096))
    (min (a + n) (b * 4096 + 4096) - max a (b * 4096))).1.flags)).length
  let mark := fun (w : W64) (b : Nat) => if (cwsOf (b * 4096) 4096).any (fun c => r.2.mem.cwBad c) then
      mkScribe (scribeGen w) (scribeProducer w) (scribeFlags w ||| 1) (scribeCrc w) else w
  (r.1.data, (r.2.readScribes a k).zipIdx.map (fun w => mark w.1 (a / 4096 + w.2)), bad, r.2)

/-- Queue the packets that carry `n` bytes at `a` to offset `off`, up to 8,192 bytes each; the last one carries the last flag. It
answers the poisoned blocks. -/
def State.queueData (s : State) (i : Nat) (base : Pkt) (a off : Nat) : Nat → Nat → Nat × State
  | 0, _ => (0, s)
  | fuel + 1, n =>
    let k := min n 8192
    let r := s.readOut a off k
    let p := { base with addr := off, len := k, data := r.1, scribes := r.2.1, last := decide (n ≤ 8192) }
    let s1 := r.2.2.2.onChan i (fun x => { x with queued := x.queued ++ [p] })
    if n ≤ 8192 then (r.2.2.1, s1)
    else
      let rest := s1.queueData i base (a + 8192) (off + 8192) fuel (n - 8192)
      (r.2.2.1 + rest.1, rest.2)

/-- Packets that `n` bytes need. -/
def pktCount (n : Nat) : Nat := max 1 (ceilDiv n 8192)

/-- Effect of an accepted WRITE, READ_REQ or READ_RESP. -/
def State.rxEffect (s : State) (i : Nat) (x : Channel) (p : Pkt) : State :=
  if p.kind = 3 then
    let s1 := (s.rxWrite x.home (x.base + p.addr) p.data p.scribes).2
    if p.vc = 6 && p.last then s1.notify x else s1
  else if p.kind = 4 then
    (s.queueData i { x.pkt i (s.chanGen i) 5 2 with op := p.op } (x.base + p.addr) p.addr (pktCount p.len) p.len).2
  else
    match x.ops.find? (fun o => o.op == p.op && o.read) with
    | none => s
    | some o =>
      let r := match o.flight with
        | some _ => s.rxWrite x.home o.dest (p.data.take o.left) p.scribes
        | none => (0, s)
      let o' := { o with dest := o.dest + p.data.length, left := o.left - p.data.length, poisoned := o.poisoned + r.1 }
      if p.last || o'.left = 0 then r.2.endOp i o'
      else r.2.onChan i (fun x => { x with ops := x.ops.map (fun q => if q.op = o.op then o' else q) })

/-- Does a packet lie within this channel's window? -/
def Channel.inWindow (x : Channel) (p : Pkt) : Bool := p.kind == 5 || p.addr + p.len ≤ x.bytes

/-- A data packet, with its CRC and epochs good. -/
def State.rxData (s : State) (i port : Nat) (p : Pkt) : State :=
  match s.chan i with
  | none => s
  | some x =>
    let d := seqFrom x.expect p.seq
    if d = 0 then
      if x.inWindow p then ((s.acceptPkt i p).rxEffect i x p).ackDue i
      else (s.bump (portPage port) Reg.PORT_DISCARD_COUNT).closeTo port p
    else if d < 2 ^ 31 then (if x.nakSent then s else s.nak i)
    else s.control i 6

/-- A valid packet moves the channel's sending to the port it came to (R459). -/
def State.heard (s : State) (i port : Nat) : State :=
  match s.chan i with
  | none => s
  | some x => if bitAt x.mask port && s.portUp port then s.moveChan i port else s

/-- A packet of a paired channel arrives: CRC, epochs, acknowledgement and grant, then `g`. -/
def State.rxPkt (s : State) (port : Nat) (p : Pkt) (t : Nat) (g : State → State) : State :=
  let s0 := s.add64 (portPage port) Reg.PORT_RX_BYTES (pktFrame p false)
  if !p.crcOk then (s0.bump (portPage port) Reg.PORT_CRC_FAIL_COUNT).nak p.dst
  else if !s0.epochsHold p then s0.closeTo port p
  else g ((s0.heard p.dst port).ackGrant p.dst p t)

/-- Run the reception of a packet of type `kind` on a port that is UP; any other packet does not come. -/
def State.rxKind (s : State) (port kind : Nat) (p : Pkt) (t : Nat) (f : State → State) : State :=
  if s.portOk port && s.portUp port && p.kind == kind && p.vc < 8 && p.grantVc < 8 then f (s.at t) else s

def execAhnazWrite (port : Nat) (pkt : Pkt) (t : Nat) (s : State) : Host.Outcome State Fault Refusal :=
  ok (s.whenUp (fun s => s.rxKind port 3 pkt t (fun s => s.rxPkt port pkt t (fun s => s.rxData pkt.dst port pkt))))
def execAhnazReadReq (port : Nat) (pkt : Pkt) (t : Nat) (s : State) : Host.Outcome State Fault Refusal :=
  ok (s.whenUp (fun s => s.rxKind port 4 pkt t (fun s => s.rxPkt port pkt t (fun s => s.rxData pkt.dst port pkt))))
def execAhnazReadResp (port : Nat) (pkt : Pkt) (t : Nat) (s : State) : Host.Outcome State Fault Refusal :=
  ok (s.whenUp (fun s => s.rxKind port 5 pkt t (fun s => s.rxPkt port pkt t (fun s => s.rxData pkt.dst port pkt))))

/-- The acknowledgement and grant of an ACK act on the channel; it has no other effect. -/
def execAhnazAck (port : Nat) (pkt : Pkt) (t : Nat) (s : State) : Host.Outcome State Fault Refusal :=
  ok (s.whenUp (fun s => s.rxKind port 6 pkt t (fun s => s.rxPkt port pkt t id)))

/-- A resend round, for a NAK or a timeout; after retry_limit of them without progress the channel fails over (R458). -/
def State.retryRound (s : State) (i t : Nat) : State :=
  match s.chan i with
  | none => s
  | some x =>
    let s1 := ((s.setChan i (some { x with progress := t, rounds := x.rounds + 1 })).bump (portPage x.port)
      Reg.PORT_RETRY_COUNT).resend i
    if x.retryLimit ≤ x.rounds + 1 then (s1.onChan i (fun y => { y with rounds := 0 })).failOver i else s1

def execAhnazNak (port : Nat) (pkt : Pkt) (t : Nat) (s : State) : Host.Outcome State Fault Refusal :=
  ok (s.whenUp (fun s => s.rxKind port 7 pkt t (fun s => s.rxPkt port pkt t (fun s => s.retryRound pkt.dst t))))

/-- CLOSE from the peer: as for destroy (Table 15-8). -/
def execAhnazClose (port : Nat) (pkt : Pkt) (t : Nat) (s : State) : Host.Outcome State Fault Refusal :=
  ok (s.whenUp (fun s => s.rxKind port 2 pkt t (fun s =>
    let s0 := s.add64 (portPage port) Reg.PORT_RX_BYTES (pktFrame pkt false)
    if !pkt.crcOk then (s0.bump (portPage port) Reg.PORT_CRC_FAIL_COUNT).nak pkt.dst
    else if s0.epochsHold pkt then s0.dropChan pkt.dst else s0)))

/-! ### Pairing (R453) -/

/-- What OPEN or OPEN_ACK tells of the peer: taken once. -/
def Channel.meet (x : Channel) (p : Pkt) : Channel :=
  let offer := (upFrom 0 8).map (fun v => nth 0 p.offer v)
  if x.peerEpoch = 0 then
    { x with peer := p.src, peerEpoch := p.srcEpoch, peerBytes := p.addr, txLimit := offer, txAvail := offer
             txOut := List.replicate 8 0 }
  else { x with peerBytes := p.addr }

/-- The local channel that an OPEN pairs with: it names the sender's address and the same key, and may use the port. -/
def State.openMatch (s : State) (port : Nat) (p : Pkt) : Option Nat :=
  (s.chans.find? (fun e => match e.2 with
    | some x => x.peerMac == p.mac && x.key == p.key && bitAt x.mask port &&
        (x.peerEpoch == 0 || (x.peer == p.src && x.peerEpoch == p.srcEpoch))
    | none => false)).map (fun e => e.1)

def State.rxOpen (s : State) (port : Nat) (p : Pkt) : State :=
  let s0 := s.add64 (portPage port) Reg.PORT_RX_BYTES (pktFrame p false)
  if !p.crcOk then s0.bump (portPage port) Reg.PORT_CRC_FAIL_COUNT
  else match s0.openMatch port p with
    | none => s0
    | some i => ((s0.onChan i (fun x => x.meet p)).heard i port).hello i 1

def execAhnazOpen (port : Nat) (pkt : Pkt) (t : Nat) (s : State) : Host.Outcome State Fault Refusal :=
  ok (s.whenUp (fun s => s.rxKind port 0 pkt t (fun s => s.rxOpen port pkt)))

/-- OPEN_ACK arrives: TP_CHANNEL_CREATE completes with the handle. -/
def State.rxOpenAck (s : State) (port : Nat) (p : Pkt) : State :=
  match s.chan p.dst with
  | none => s
  | some x =>
    if x.paired then s
    else
      (((s.setChan p.dst (some { x.meet p with paired := true })).heard p.dst port)).finish x.flight.1 x.flight.2 0 0
        (s.handleOf .chan p.dst)

def execAhnazOpenAck (port : Nat) (pkt : Pkt) (t : Nat) (s : State) : Host.Outcome State Fault Refusal :=
  ok (s.whenUp (fun s => s.rxKind port 1 pkt t (fun s =>
    let s0 := s.add64 (portPage port) Reg.PORT_RX_BYTES (pktFrame pkt false)
    if !pkt.crcOk then (s0.bump (portPage port) Reg.PORT_CRC_FAIL_COUNT).nak pkt.dst
    else if s0.epochsHold pkt then s0.rxOpenAck port pkt else s0.closeTo port pkt)))

def execOpenTimeout (chan t : Nat) (s : State) : Host.Outcome State Fault Refusal :=
  ok (s.whenUp (fun s => match s.chan chan with
    | none => s
    | some x =>
      if !x.paired && x.openBy ≤ t then
        ((((s.at t).setChan chan none).dropSlot .chan chan).lateFail (portPage x.port) x.flight Err.timeout)
      else s))

/-! ### Sending, timers (R457, R458, R460) -/

/-- May this queued packet go: is no packet of its VC ahead of it, and does the VC hold its credits? -/
def sendable (x : Channel) : List Pkt → List Nat → Option Pkt
  | [], _ => none
  | p :: ps, blocked =>
    if !blocked.contains p.vc && pktCells p ≤ nth 0 x.txAvail p.vc then some p else sendable x ps (p.vc :: blocked)

/-- Take the first occurrence of a packet out of a queue. -/
def dropFirst (p : Pkt) : List Pkt → List Pkt
  | [] => []
  | q :: qs => if q = p then qs else q :: dropFirst p qs

/-- The next packet whose VC holds the credits is sent: it takes them and the next sequence number, and is kept. -/
def State.sendNext (s : State) (i t : Nat) : State :=
  match s.chan i with
  | none => s
  | some x =>
    if !x.paired || !s.portUp x.port then s
    else match sendable x x.queued [] with
      | none => s
      | some p =>
        let q := { p with seq := x.nextSeq }
        (s.setChan i (some { x with
          queued := dropFirst p x.queued, unacked := x.unacked ++ [q], nextSeq := (x.nextSeq + 1) % 2 ^ 32
          txAvail := subNth x.txAvail p.vc (pktCells p), txOut := addNth x.txOut p.vc (pktCells p)
          progress := if x.unacked.isEmpty then t else x.progress })).emit i q

def execPacketSend (chan t : Nat) (s : State) : Host.Outcome State Fault Refusal :=
  ok (s.whenUp (fun s => (s.at t).sendNext chan t))

/-- 1 µs with accepted packets unacknowledged: an ACK is sent. -/
def execAckTimer (chan t : Nat) (s : State) : Host.Outcome State Fault Refusal :=
  ok (s.whenUp (fun s => match s.chan chan with
    | none => s
    | some x => if 0 < x.unackedRx then (s.at t).control chan 6 else s))

/-- retry_timeout without acknowledgement progress: a resend round. A channel that is not paired yet sends its OPEN again. -/
def State.retryDue (s : State) (i : Nat) (x : Channel) (t : Nat) : State :=
  if !x.paired then
    (match s.firstPort x.mask with
      | some p => (s.setChan i (some { x with port := if s.portUp x.port then x.port else p, progress := t })).hello i 0
      | none => s)
  else if x.unacked.isEmpty || !s.portUp x.port then s
  else s.retryRound i t

def execRetryTimeout (chan t : Nat) (s : State) : Host.Outcome State Fault Refusal :=
  ok (s.whenUp (fun s => match s.chan chan with
    | none => s
    | some x => if x.progress + x.retryTimeout ≤ t then (s.at t).retryDue chan x t else s))

/-! ### TP_CHANNEL_CREATE and TP_CHANNEL_DESTROY -/

/-- Cells of a die's receive pool that channels offer. -/
def State.poolCells (s : State) (die : Nat) : Nat :=
  sumL (s.chans.map (fun e => match e.2 with
    | some x => if x.home = die then sumL x.rxLimit else 0
    | none => 0))

def orElse (v d : Nat) : Nat := if v = 0 then d else v

/-- A new channel from its block (Table 15-4). -/
def newChan (tenant t : Nat) (fl : Nat × Nat) (b : Bytes) : Channel where
  tenant := tenant
  peerMac := fieldB b 0x00 6
  key := fieldB b 0x08 4
  mask := fieldB b 0x0C 4
  base := fieldB b 0x10 8
  bytes := fieldB b 0x18 8
  notify := fieldB b 0x20 4
  vlan := fieldB b 0x24 2
  rxLimit := (upFrom 0 8).map (fun v => 16 * orElse (fieldB b (0x28 + v) 1) 64)
  retryTimeout := orElse (fieldB b 0x30 4) 20000
  retryLimit := orElse (fieldB b 0x34 1) 16
  openBy := t + orElse (fieldB b 0x38 4) 10000000
  flight := fl
  paired := false
  peer := 0
  peerEpoch := 0
  peerBytes := 0
  port := lowBit (fieldB b 0x0C 4) 32
  nextSeq := 0
  expect := 0
  unacked := []
  queued := []
  txLimit := List.replicate 8 0
  txAvail := List.replicate 8 0
  txOut := List.replicate 8 0
  granted := List.replicate 8 0
  rxHeld := List.replicate 8 0
  freed := List.replicate 8 0
  grantTurn := 0
  nakSent := false
  unackedRx := 0
  rounds := 0
  progress := t
  ops := []
  nextOp := 0

/-- The ranges of the block (R520), then the checks of R454, then a free slot (R519). -/
def State.chanCode (s : State) (x : Channel) : Nat :=
  let ports := (upFrom 0 32).filter (fun p => bitAt x.mask p)
  if x.base % 4096 ≠ 0 || !s.devRange x.base x.bytes then Err.length
  else if !ports.any (fun p => s.portOk p) || ports.any (fun p => !s.portOk p || (s.port p).state == 6) then Err.absentUnit
  else if 65536 < s.poolCells x.home + sumL x.rxLimit then Err.length
  else if !s.hasFreeSlot .chan then Err.length
  else 0

/-- PAGE_ERR_INFO.detail of the refused channel: bit 15 when the first port in ascending order that R454 refuses is present and
retired (R55). -/
def State.chanDetail (s : State) (x : Channel) : Nat :=
  match (upFrom 0 32).find? (fun p => bitAt x.mask p && (!s.portOk p || (s.port p).state == 6)) with
  | some p => if s.portOk p then 0x8000 else 0
  | none => 0

/-- The channel is made and sends OPEN through its first live port. -/
def State.openChan (s : State) (f : Flight) (x : Channel) : State :=
  let i := s.nextSlot .chan
  let y := { x with port := (s.firstPort x.mask).getD x.port }
  (((s.takeSlot .chan f.tenant).setChan i (some y)).hello i 0).waitFlight f.q f.ix

def execTpChannelCreate (q ix : Nat) (s : State) : Host.Outcome State Fault Refusal :=
  ok (s.runFlight q ix 0x40 (fun s f =>
    let n := dField f.desc 0x28 8
    let a := dField f.desc 0x20 8
    if n = 0 then s.passOp f 0
    else if n < 64 || !s.devRange a 64 then s.failOp f Err.length 0
    else s.opBlock f none a 64 (fun s b =>
      let x := newChan f.tenant s.time (f.q, f.ix) b
      if s.chanCode x = 0 then s.openChan f x
      else s.failOp f (s.chanCode x) (if s.chanCode x = Err.absentUnit then s.chanDetail x else 0))))

def execTpChannelDestroy (q ix : Nat) (s : State) : Host.Outcome State Fault Refusal :=
  ok (s.runFlight q ix 0x41 (fun s f =>
    let h := dHandle f.desc
    s.checked f (s.checkHandle f.tenant .chan h) (((s.control (hIdx h) 2).dropChan (hIdx h)).passOp f 0)))

/-! ### TP_WRITE and TP_READ (R463) -/

/-- Code of a transfer's checks: the handle, the peer's window, the local range. -/
def State.tpCode (s : State) (f : Flight) (loc : Nat) : Nat :=
  let h := dHandle f.desc
  let off := dField f.desc 0x30 8
  let n := dField f.desc 0x38 8
  if s.checkHandle f.tenant .chan h ≠ 0 then s.checkHandle f.tenant .chan h
  else match s.chan (hIdx h) with
    | none => Err.staleHandle
    | some x =>
      if !x.paired then Err.notReady
      else if x.peerBytes < off + n || !s.devRange loc n then Err.length
      else 0

/-- A write of `n` bytes at `a` to offset `off` of the peer's window is queued on a VC. -/
def State.startWrite (s : State) (i vc a off n : Nat) (fl : Option (Nat × Nat)) : State :=
  match s.chan i with
  | none => s
  | some x =>
    let r := s.queueData i { x.pkt i (s.chanGen i) 3 vc with op := x.nextOp } a off (pktCount n) n
    r.2.onChan i (fun y => { y with
      ops := y.ops ++ [⟨fl, x.nextOp, false, 0, 0, r.1⟩], nextOp := (x.nextOp + 1) % 2 ^ 32 })

/-- Packets of a write whose bytes the device has made itself, such as an encrypted page. -/
def bytePkts (base : Pkt) (off : Nat) : Nat → Bytes → List Pkt
  | 0, _ => []
  | fuel + 1, bs =>
    { base with addr := off, len := min 8192 bs.length, data := bs.take 8192, last := decide (bs.length ≤ 8192) } ::
      (if bs.length ≤ 8192 then [] else bytePkts base (off + 8192) fuel (bs.drop 8192))

def State.startBytes (s : State) (i vc off : Nat) (bs : Bytes) : State :=
  match s.chan i with
  | none => s
  | some x =>
    let ps := bytePkts { x.pkt i (s.chanGen i) 3 vc with op := x.nextOp } off (pktCount bs.length) bs
    s.setChan i (some { x with
      queued := x.queued ++ ps, ops := x.ops ++ [⟨none, x.nextOp, false, 0, 0, 0⟩], nextOp := (x.nextOp + 1) % 2 ^ 32 })

/-- A read of `n` bytes at offset `off` of the peer's window: one READ_REQ on a VC. -/
def State.startRead (s : State) (i vc dest off n : Nat) (fl : Option (Nat × Nat)) : State :=
  match s.chan i with
  | none => s
  | some x =>
    let p := { x.pkt i (s.chanGen i) 4 vc with op := x.nextOp, addr := off, len := n, last := true }
    s.setChan i (some { x with
      queued := x.queued ++ [p], ops := x.ops ++ [⟨fl, x.nextOp, true, dest, n, 0⟩], nextOp := (x.nextOp + 1) % 2 ^ 32 })

def execTpWrite (q ix : Nat) (s : State) : Host.Outcome State Fault Refusal :=
  ok (s.runFlight q ix 0x42 (fun s f =>
    let n := dField f.desc 0x38 8
    let c := s.tpCode f (dField f.desc 0x28 8)
    if c ≠ 0 then s.failOp f c 0
    else if n = 0 then s.passOp f 0
    else (s.startWrite (hIdx (dHandle f.desc)) (if bitAt (dField f.desc 0x24 1) 0 then 6 else 3) (dField f.desc 0x28 8)
      (dField f.desc 0x30 8) n (some (f.q, f.ix))).waitFlight f.q f.ix))

def execTpRead (q ix : Nat) (s : State) : Host.Outcome State Fault Refusal :=
  ok (s.runFlight q ix 0x43 (fun s f =>
    let n := dField f.desc 0x38 8
    let c := s.tpCode f (dField f.desc 0x28 8)
    if c ≠ 0 then s.failOp f c 0
    else if n = 0 then s.passOp f 0
    else (s.startRead (hIdx (dHandle f.desc)) 1 (dField f.desc 0x28 8) (dField f.desc 0x30 8) n
      (some (f.q, f.ix))).waitFlight f.q f.ix))

end Sys2Proof.Machine
end

