-- ==== Sys2Proof/Machine/Ports.lean ====
section
/-!
DEFINITION. Optical engines and ports (R442 to R452, R461): light, training, failing lanes, the frame filter and the port census.
-/

namespace Sys2Proof.Machine

/-- Page of global optical engine `e`: engine e % 4 of die e / 4 (R442). -/
def opticPage (e : Nat) : Page := unitPage .opt (e / 4) (e % 4)
def State.optic (s : State) (e : Nat) : Optic := look Optic.reset s.optics e
def State.setOptic (s : State) (e : Nat) (x : Optic) : State := { s with optics := put Optic.reset s.optics e x }
def State.opticOk (s : State) (e : Nat) : Bool := e < 4 * s.dies

/-- PORT_CFG.enable and PORT_CFG.mode. -/
def State.portEnabled (s : State) (p : Nat) : Bool := s.fld (portPage p) Reg.PORT_CFG 31 31 == 1
def State.portNative (s : State) (p : Nat) : Bool := s.fld (portPage p) Reg.PORT_CFG 30 30 == 1

/-! ### Light (R444) -/

/-- A port loses its laser light: a RETIRED port and one that is DOWN stay as they are. -/
def State.darken (s : State) (p : Nat) : State :=
  if (s.port p).state = 6 || (s.port p).state = 0 then s else s.portTo p 5

def execLightLoss (engine : Nat) (power : Int) (s : State) : Host.Outcome State Fault Refusal :=
  ok (s.whenUp (fun s =>
    if s.opticOk engine && (s.optic engine).light && decide (power < 1500) then
      ((((s.setOptic engine ⟨false, power⟩).bump (opticPage engine) Reg.OPT_LIGHT_LOST_COUNT).raise (opticPage engine)
        1).darken (2 * engine)).darken (2 * engine + 1)
    else s))

/-- A port without light retrains when it returns. -/
def State.relight (s : State) (p : Nat) : State := if (s.port p).state = 5 then s.portTo p 1 else s

def execLightReturn (engine : Nat) (power : Int) (s : State) : Host.Outcome State Fault Refusal :=
  ok (s.whenUp (fun s =>
    if s.opticOk engine && !(s.optic engine).light && decide (1600 ≤ power) then
      (((s.setOptic engine ⟨true, power⟩).raise (opticPage engine) 2).relight (2 * engine)).relight (2 * engine + 1)
    else s))

/-! ### Training (R448, R452) -/

/-- Number of retired lanes. -/
def retiredLanes (m : Nat) : Nat := ((upFrom 0 8).filter (fun i => bitAt m i)).length

/-- A port trains: with light, enabled, and not RETIRED. -/
def State.train (s : State) (p : Nat) : State :=
  if !s.portEnabled p then s.portTo p 0
  else if !(s.optic (p / 2)).light then s.portTo p 5
  else s.portTo p 1

def execPortRetrain (port : Nat) (s : State) : Host.Outcome State Fault Refusal :=
  ok (s.hostPage (unitPage .port (port / 8) (port % 8)) (fun s => if (s.port port).state != 6 then s.train port else s))

/-- Training ends in UP, on 7 lanes when the native port has retired one. -/
def State.trained (s : State) (p : Nat) : State :=
  let x := s.port p
  (s.setPort p { x with native := s.portNative p, active := 255 - x.retired % 256 }).portTo p
    (if s.portNative p && retiredLanes x.retired == 1 then 3 else 2)

def execPortTrainingComplete (port : Nat) (s : State) : Host.Outcome State Fault Refusal :=
  ok (s.whenUp (fun s => if s.portOk port && (s.port port).state == 1 then s.trained port else s))

/-- The port's record of retired lanes goes, and it retrains on all 8 lanes (R451). -/
def State.clearRetired (s : State) (p : Nat) : State :=
  let x := s.port p
  let s1 := (s.setPort p { x with retired := 0, badWindows := [], crcWindows := 0 })
  ({ s1 with flash := { s1.flash with lanes := put 0 s1.flash.lanes p 0 } } : State).train p

def execPortClearRetired (port : Nat) (s : State) : Host.Outcome State Fault Refusal :=
  ok (s.hostPage (unitPage .port (port / 8) (port % 8)) (fun s => s.clearRetired port))

/-! ### Failing lanes (R449 to R451) -/

/-- State of a port after a lane retirement (Table 15-3). -/
def laneOutcome (native : Bool) (st retired : Nat) : Nat :=
  if !native || 2 ≤ retiredLanes retired then 6
  else if st = 2 then 3 else st

/-- A faulty lane is retired and recorded in the log flash. -/
def State.retireLane (s : State) (p lane : Nat) : State :=
  let x := s.port p
  if bitAt x.retired lane || 8 ≤ lane then s
  else
    let m := x.retired + 2 ^ lane
    let s1 := s.setPort p { x with
      retired := m, active := x.active - (if bitAt x.active lane then 2 ^ lane else 0), badWindows := x.badWindows.set lane 0 }
    let s2 : State := { s1 with flash := { s1.flash with lanes := put 0 s1.flash.lanes p m } }
    let s3 := ((s2.bump (portPage p) Reg.PORT_LANE_RETIRE_COUNT).raise (portPage p) 2).bump (opticPage (p / 2))
      Reg.OPT_LANE_FAULT_COUNT
    (s3.logEvent (portPage p) 0 none none 0 2 0).portTo p (laneOutcome x.native x.state m)

/-- Is the port one whose receiver runs? -/
def State.portRuns (s : State) (p : Nat) : Bool := s.portOk p && (s.portUp p || (s.port p).state == 1)

def execLaneLockLoss (port lane : Nat) (s : State) : Host.Outcome State Fault Refusal :=
  ok (s.whenUp (fun s => if s.portRuns port then s.retireLane port lane else s))

/-- Does an error ratio, an FP32 pattern, exceed 2.0 × 10⁻⁴? -/
def badRatio (r : Nat) : Bool :=
  match fp32.decode r with
  | .fin false m e => if 0 ≤ e then 0 < m else 2 * 2 ^ (-e).toNat < 10000 * m
  | .fin true _ _ => false
  | .inf n => !n
  | .nan => false

/-- Bad windows in a row of each lane after a window with these ratios. -/
def windowsAfter (old ratios : List Nat) : List Nat :=
  (upFrom 0 8).map (fun i => if badRatio (nth 0 ratios i) then nth 0 old i + 1 else 0)

/-- The lane with the highest ratio among those that are not retired. -/
def worstLane (retired : Nat) (ratios : List Nat) : Option Nat :=
  ((upFrom 0 8).filter (fun i => !bitAt retired i)).foldl (fun acc i => match acc with
    | none => some i
    | some j => if nth 0 ratios j < nth 0 ratios i then some i else some j) none

def State.retireLanes (s : State) (p : Nat) : List Nat → State
  | [] => s
  | l :: ls => (s.retireLane p l).retireLanes p ls

/-- A 1 s window ends (R449). How many RS codewords the receiver corrected or could not correct in it (Table 15-14) is the
world's. -/
def State.laneWindow (s : State) (p : Nat) (ratios : List Nat) (crcFails : Nat) : State :=
  let x := s.port p
  let ws := windowsAfter x.badWindows ratios
  let cw := if 1000 < crcFails then x.crcWindows + 1 else 0
  let s0 := ((s.bumpN (portPage p) Reg.PORT_FEC_CORR_COUNT s.draw).spend.bumpN (portPage p) Reg.PORT_FEC_UNCORR_COUNT
    s.spend.draw).spend
  let s1 := s0.setPort p { x with badWindows := ws, crcWindows := if cw = 3 then 0 else cw, ber := ratios.take 8 }
  let s2 := s1.retireLanes p ((upFrom 0 8).filter (fun i => 3 ≤ nth 0 ws i))
  if cw = 3 then
    match worstLane (s2.port p).retired ratios with
    | some l => s2.retireLane p l
    | none => s2
  else s2

def execLaneErrorWindow (port : Nat) (ratios : List Nat) (crcFails : Nat) (s : State) : Host.Outcome State Fault Refusal :=
  ok (s.whenUp (fun s => if s.portRuns port then s.laneWindow port ratios crcFails else s))

/-! ### Frames that are not for this port (R445, R447) -/

/-- Big-endian value of a byte string. -/
def beNat (bs : Bytes) : Nat := bs.foldl (fun acc b => acc * 256 + b.toNat) 0

/-- Offset of a frame's EtherType: past one 802.1Q tag where there is one. -/
def typeOff (bs : Bytes) : Nat := if beNat ((bs.drop 12).take 2) = 0x8100 then 16 else 12

/-- Does a port take a frame: its address, its EtherType, a good FCS? A PAUSE or PFC frame has another EtherType. -/
def State.takesFrame (s : State) (p : Nat) (bs : Bytes) (fcsOk : Bool) : Bool :=
  fcsOk && beNat (bs.take 6) == s.portMac p && beNat ((bs.drop (typeOff bs)).take 2) == s.etherType p

/-- A frame that the port does not take is discarded and counted. The packet of one that it takes acts by the row of its type. -/
def execEthernetFrameReceive (port : Nat) (data : Bytes) (fcsOk : Bool) (s : State) : Host.Outcome State Fault Refusal :=
  ok (s.whenUp (fun s =>
    if s.portOk port && s.portUp port && !s.takesFrame port data fcsOk then
      s.bump (portPage port) Reg.PORT_DISCARD_COUNT
    else s))

/-! ### The census (R461, Table 15-12) -/

/-- Sum of a figure over the channels that send on a port. -/
def State.portSum (s : State) (p : Nat) (f : Channel → Nat) : Nat :=
  sumL (s.chans.map (fun e => match e.2 with
    | some x => if x.port = p then f x else 0
    | none => 0))

def State.txLimit (s : State) (p : Nat) : Nat := s.portSum p (fun x => sumL x.txLimit)
def State.txAvail (s : State) (p : Nat) : Nat := s.portSum p (fun x => sumL x.txAvail)
def State.txOut (s : State) (p : Nat) : Nat := s.portSum p (fun x => sumL x.txOut)
def State.rxLimit (s : State) (p : Nat) : Nat := s.portSum p (fun x => sumL x.rxLimit)
def State.rxHeld (s : State) (p : Nat) : Nat := s.portSum p (fun x => sumL x.rxHeld)

/-- Both identities of a port. -/
def State.portSound (s : State) (p : Nat) : Bool :=
  s.txAvail p + s.txOut p == s.txLimit p && s.rxHeld p ≤ s.rxLimit p

/-- The page of a port latches a failed audit. -/
def State.portFault (s : State) (p : Nat) : State := (s.latchErr (portPage p) Err.conservation none 0 0).raise (portPage p) 3
/-- The audit of a port. -/
def State.portAudit (s : State) (p : Nat) : State :=
  if s.portSound p then s else (s.portFault p).auditFailed [0]

def execPortCensus (port : Nat) (s : State) : Host.Outcome State Fault Refusal :=
  ok (s.hostPage (unitPage .port (port / 8) (port % 8)) (fun s => s.portAudit port))

end Sys2Proof.Machine
end

