-- ==== Sys2Proof/Machine/Fabric.lean ====
section
/-!
DEFINITION. The scheduled fabric (chapter 10): router slot entries (R293, R303 to R305), link failures and lost bridge modules
(R299, R300), stalls (R297), ring ports (R301, R325), slot shares (R308), and the reissue mark of the knot map (R311).
-/

namespace Sys2Proof.Machine

/-- FAB pages and their event bits (R320). -/
abbrev fabPage (die : Nat) : Page := diePage .fab die

/-! ### Routers -/

/-- Ports: 0 N, 1 E, 2 S, 3 W, 4 L, 5 X. The port at the far end of a link. -/
def farPort (p : Nat) : Nat := if p = 0 then 2 else if p = 1 then 3 else if p = 2 then 0 else 1

/-- The router on the other side of a bridge port, as (die, bent) (Table 10-2). -/
def State.acrossBridge (s : State) (die bent p : Nat) : Option (Nat × Nat) :=
  let d := if p = 1 then (die + 1) % 4 else (die + 3) % 4
  if s.dieOk d then some (d, if p = 1 then bent / 16 * 16 else bent / 16 * 16 + 15) else none

/-- Does an input port carry flits of another router: the router, its output and the latency in slots (Table 10-1)? None at a
ring port, at L and X, where no bridge is, and across a dead link, a dead router or a bridge channel that is gone. -/
def State.source (s : State) (die bent p : Nat) : Option (Nat × Nat × Nat × Nat) :=
  if 4 ≤ p || s.outKnot die bent p then none
  else
    let r := if isBridge bent p then (s.acrossBridge die bent p).map (fun x => (x.1, x.2, farPort p, 8))
      else (farBent bent p).map (fun b => (die, b, farPort p, 1))
    match r with
    | some x => if (s.knotDie x.1).routers.contains x.2.1 then none else some x
    | none => none

/-- Has the flit of slot `n` arrived on an input? -/
def State.inputReady (s : State) (n : Nat) (src : Nat × Nat × Nat × Nat) : Bool :=
  n < s.fab.base + src.2.2.2 || n - src.2.2.2 < s.slotOf src.1 src.2.1

/-- The flit that another router sent, `n` the slot it is received in. -/
def State.inputFrom (s : State) (n : Nat) (src : Nat × Nat × Nat × Nat) : Option Flit :=
  if n < s.fab.base + src.2.2.2 then none
  else
    let r := s.router src.1 src.2.1
    nth none (nth [] r.out (s.slotOf src.1 src.2.1 - 1 - (n - src.2.2.2))) src.2.2.1

/-- A flit that a unit or a ring port has put on an input for a slot. -/
def State.stagedAt (s : State) (die bent p n : Nat) : Option Flit :=
  (s.fab.staged.find? (fun e => e.1 == bentKey die bent && e.2.1 == p && e.2.2.1 == n)).map (fun e => e.2.2.2)

/-- The 128 bytes of a bench at an address, as the flit that answers a remote read; `refused` are the bents whose conflicting read
of the slot it answers poisoned (R305). -/
def State.benchFlit (s : State) (die bent a : Nat) (refused : List Nat) : Flit :=
  let b := s.bent die bent
  { (flitsOf (b.rangeFlags (a / 128 * 128) 128) 0 1 (b.vec (a / 128 * 32) 32)).headD ⟨0, true, false, 0, 0, 0, []⟩ with
    refused := refused }

/-- The lowest requesting bent of the remote reads of a slot, with its address. -/
def lowestRead : List (Nat × Nat) → Option (Nat × Nat)
  | [] => none
  | r :: rs => match lowestRead rs with
    | none => some r
    | some q => if q.1 < r.1 then some q else some r

/-- Flit on an input in slot `n`; `reads` are the remote reads of the bench in that slot. -/
def State.input (s : State) (die bent n : Nat) (reads : List (Nat × Nat)) (p : Nat) : Option Flit :=
  match s.source die bent p with
  | some src => s.inputFrom n src
  | none =>
    if p = 4 then match lowestRead reads with
      | some r => some (s.benchFlit die bent r.2
          ((reads.filter (fun q => q.2 / 128 != r.2 / 128)).map (fun q => bentKey die q.1)))
      | none => s.stagedAt die bent p n
    else s.stagedAt die bent p n

/-- A flit that failed its CRC is delivered with its poison bit set (R300). -/
def badFlit (f : Option Flit) : Option Flit := f.map (fun f => { f with poison := true })

/-! ### The words that plans give a router -/

/-- Plan slot of the step that runs in fabric slot `n`, up to the plan's next gate. -/
def Live.planSlot (l : Live) (n : Nat) : Option Nat :=
  let k := l.r.baseSlot + (n - l.r.fslot)
  if l.r.inStep && l.r.fslot ≤ n && k < l.r.gate.getD l.nextGate then some k else none

/-- The running plans. -/
def State.lives (s : State) : List Live := s.ctxs.filterMap (fun e => s.live e.1)

/-- The entry of a router in a slot: those of the running plans, which use different links (R309), and all zero without one
(R303). -/
def State.routerWord (s : State) (die bent n : Nat) : Nat :=
  s.lives.foldl (fun (acc : Nat) (l : Live) => match l.planSlot n with
    | none => acc
    | some k => acc ||| (l.wordAt 0 die bent 0 k).getD 0) 0

/-- The flit of a source code (Table 10-4). -/
def sourceFlit (ins hold : List (Option Flit)) (code : Nat) : Option Flit :=
  if 1 ≤ code && code ≤ 6 then nth none ins (code - 1) else if 8 ≤ code then nth none hold (code - 8) else none

/-- Hold entry `h` after the captures of an entry (Table 10-3). -/
def captured (w : Nat) (ins : List (Option Flit)) (old : Option Flit) (h : Nat) : Option Flit :=
  match (upFrom 0 6).find? (fun p => bits w (27 + 4 * p) (24 + 4 * p) == 8 + h) with
  | some p => nth none ins p
  | none => old

/-- A router applies an entry to the flits of its inputs: hold entries give what they held before the slot. -/
def Router.apply (r : Router) (w : Nat) (ins : List (Option Flit)) : Router where
  slot := r.slot + 1
  hold := (upFrom 0 8).map (fun h => captured w ins (nth none r.hold h) h)
  out := ((upFrom 0 6).map (fun o => sourceFlit ins r.hold (outSel w o)) :: r.out).take 20

/-! ### Link failures (R299, R300) -/

/-- The mesh or ring-port link behind an input as (router, 1 for its E link or 2 for its S link); the knot map has no bit for
the ring ports of row 0. -/
def linkOf (die bent p : Nat) : Option (Nat × Nat) :=
  if p = 0 then (if 16 ≤ bent then some (bentKey die (bent - 16), 2) else none)
  else if p = 1 then some (bentKey die bent, 1)
  else if p = 2 then some (bentKey die bent, 2)
  else some (bentKey die (bent - 1), 1)

/-- A flit on a mesh link or a ring port has failed its CRC in slot `n`: the second time within 2³² slots the link is dead. -/
def State.linkFailed (s : State) (die bent p n : Nat) : State :=
  let s1 := (s.bump (fabPage die) Reg.FAB_FLIT_CRC_COUNT).raise (fabPage die) 5
  match linkOf die bent p with
  | none => s1
  | some k =>
    let again := s.fab.crcFails.any (fun e => e.1 == k.1 && e.2.1 == k.2 && n < e.2.2 + 2 ^ 32)
    let s2 : State := { s1 with fab := { s1.fab with
      crcFails := (k.1, k.2, n) :: s1.fab.crcFails.filter (fun e => !(e.1 == k.1 && e.2.1 == k.2)) } }
    let bit := 2 * (k.1 % 128) + (k.2 - 1)
    if again && !(s.knotDie die).links.contains bit then
      (s2.knotsOn 1 die (fun d => { d with links := insertAsc bit d.links })).raise (fabPage die) 3
    else s2

/-- A flit of a bridge that failed its CRC is replayed once; one that fails again is delivered poisoned. -/
def State.bridgeFailed (s : State) (die : Nat) (again : Bool) : State :=
  let s1 := s.bump (fabPage die) Reg.FAB_BRIDGE_REPLAY_COUNT
  if again then (s1.bump (fabPage die) Reg.FAB_BRIDGE_POISON_COUNT).raise (fabPage die) 5 else s1

/-- Is the flit of an input delivered poisoned, with `bad` naming the inputs whose flit failed its CRC, once for each failure? -/
def poisonedIn (bent : Nat) (bad : List Nat) (p : Nat) : Bool :=
  if isBridge bent p then 2 ≤ bad.count p else p < 4 && bad.contains p

/-- What the CRC failures of a slot's inputs leave behind. -/
def State.crcEvents (s : State) (die bent n : Nat) (bad : List Nat) : List Nat → State
  | [] => s
  | p :: ps =>
    (if !bad.contains p then s
     else if isBridge bent p then s.bridgeFailed die (2 ≤ bad.count p)
     else s.linkFailed die bent p n).crcEvents die bent n bad ps

/-- Remote reads that fall in one slot: reads of one address by several bents merge; reads of different addresses conflict
(R305). -/
def State.countReads (s : State) (die : Nat) (reads : List (Nat × Nat)) : State :=
  match lowestRead reads with
  | none => s
  | some r =>
    let same := reads.filter (fun q => q.2 / 128 == r.2 / 128)
    let s1 := if 2 ≤ same.length then s.bump (fabPage die) Reg.FAB_MERGE_COUNT else s
    if same.length < reads.length then s1.bump (fabPage die) Reg.FAB_MERGE_CONFLICT_COUNT else s1

/-- Outputs of a router that lead to a unit or a ring port: L, X, and the ports that face the I/O ring (R298). -/
def unitOutputs (bent : Nat) : List Nat :=
  (if bent < 16 then [0] else []) ++ (if 112 ≤ bent then [2] else []) ++ [4, 5]

/-- What a router sends to units in slot `n`, as they find it; a bent whose read was refused finds poison (R305). -/
def landing (die bent n : Nat) (outs : List (Option Flit)) : List (Nat × Nat × Nat × Flit) :=
  (unitOutputs bent).filterMap (fun p => (nth none outs p).map (fun f =>
    (bentKey die bent, p, n, if f.refused.contains (bentKey die bent) then { f with poison := true } else f)))

/-- A router completes its slot. -/
def State.runRouter (s : State) (die bent : Nat) (bad : List Nat) (reads : List (Nat × Nat)) : State :=
  let n := s.slotOf die bent
  let ins := (upFrom 0 6).map (fun p =>
    let f := s.input die bent n reads p
    if poisonedIn bent bad p then badFlit f else f)
  let r := (s.router die bent).apply (s.routerWord die bent n) ins
  let s1 : State := { s with fab := { s.fab with
    staged := s.fab.staged.filter (fun e => !(e.1 == bentKey die bent && e.2.2.1 ≤ n))
    landed := landing die bent n (r.out.headD []) ++ s.fab.landed } }
  ((s1.setRouter die bent r).crcEvents die bent n bad [0, 1, 2, 3]).countReads die reads

/-- Step slots of the words of a unit that send on a router's input in fabric slot `n`, `d` slots after the word's own. -/
def Live.senderAt (l : Live) (kind die unit n d : Nat) : Option Nat :=
  (l.planSlot (n - d)).bind (fun k => if d ≤ n then l.wordAt kind die unit 0 k else none)

/-- Have the words of a plan that send on the router's L input in slot `n` been carried out: its bent's READ and STORE words, and the
vector words whose result leaves then? -/
def State.bentGave (s : State) (l : Live) (die bent n : Nat) : Bool :=
  ((l.senderAt 2 die bent n 0).all (fun w =>
    !((bits w 63 60 == 4 || bits w 63 60 == 5) && ledgAddr w == fabAddr) || s.isGiven die bent 4 n)) &&
  (l.words 3 die bent 0).all (fun w =>
    let r := (s.bent die bent).vrec (bits w.2 20 0)
    !((l.planSlot (l.fabSlot w.1)).isSome && bits w.2 63 60 == 1 && r.outFab && r.outSlot (l.fabSlot w.1) == n) ||
      s.isGiven die bent vecPort (l.fabSlot w.1))

/-- Have the words of a plan that send on the router's X input and on its ring ports in slot `n` been carried out: an engine's SEND,
and a ring port's READ of the slot before? -/
def State.edgeGave (s : State) (l : Live) (die bent n : Nat) : Bool :=
  (upFrom 0 16).all (fun e => attBent e != bent || (l.senderAt 4 die e n 0).all (fun w =>
    bits w 63 60 != 5 || s.isGiven die bent 5 n)) &&
  (upFrom 0 32).all (fun p => ringBent p != bent || (l.senderAt 7 die p n 1).all (fun w =>
    bits w 63 60 != 1 || s.isGiven die bent (ringIn p) n))

/-- Does the FAB page of a die wait to copy a snapshot whose named slot the router has passed (R315)? -/
def State.fabHolds (s : State) (die n : Nat) : Bool := s.cutHolds [fabPage die] n

/-- Does no plan hold the router back in slot `n`: it has come to no gate at which the plan has not arrived yet, and every unit has put
its flit on the router's inputs? -/
def State.planLets (s : State) (l : Live) (die bent n : Nat) : Bool :=
  !(l.r.inStep && l.r.gate.isNone && l.routers.contains (die, bent) && l.fabSlot l.nextGate ≤ n) &&
    (l.r.gate.isSome || (s.bentGave l die bent n && s.edgeGave l die bent n))

/-- May a router complete its slot: it lives, the fabric is not stalled, no snapshot holds it, and every input has its flit (R293)? -/
def State.routerReady (s : State) (die bent : Nat) : Bool :=
  s.dieOk die && bent < 128 && !(s.knotDie die).routers.contains bent && !s.fab.stalled &&
    !s.fabHolds die (s.slotOf die bent) &&
    (upFrom 0 4).all (fun p => match s.source die bent p with
      | some src => s.inputReady (s.slotOf die bent) src
      | none => true) &&
    s.lives.all (fun l => s.planLets l die bent (s.slotOf die bent))

/-- `crcBad` lists the inputs whose flit failed its CRC, a bridge input twice when its replay failed too; `reads` are the remote
reads of the bench in the slot, as (requesting bent, bench address). -/
def execRouterSlotEntry (die bent : Nat) (crcBad : List Nat) (reads : List (Nat × Nat)) (s : State) :
    Host.Outcome State Fault Refusal :=
  ok (s.whenUp (fun s => if s.routerReady die bent then s.runRouter die bent crcBad reads else s))

/-! ### Stalls (R297) -/

/-- Contexts whose plan runs between two gates. -/
def State.midStep (s : State) : List Nat :=
  (s.ctxs.filter (fun (e : Nat × Option Ctx) => match s.live e.1 with
    | some l => l.r.inStep && l.r.gate.isNone
    | none => false)).map (fun e => e.1)

/-- A plan that ran between two gates ends with TIMEOUT, and its context is faulted. -/
def State.endStalled (s : State) (c : Nat) : State :=
  match s.live c with
  | some l => (s.abandon l s.time Err.timeout true).thenDestroy l
  | none => s

/-- Stall counts and the stall bit of every die's FAB page. -/
def State.stallDies (s : State) : Nat → State
  | 0 => s
  | n + 1 => ((s.stallDies n).bump (fabPage n) Reg.FAB_STALL_COUNT).raise (fabPage n) 1

/-- First multiple of 64 above the highest slot that a router has reached. -/
def State.resumeSlot (s : State) : Nat :=
  (s.fab.routers.foldl (fun m e => max m (s.fab.base + e.2.slot)) s.fab.base / 64 + 1) * 64

def State.stall (s : State) (die bent port : Nat) : State :=
  let s1 := s.wr (fabPage die) Reg.FAB_LAST_STALL (packW [(31, 1), (8, port % 8), (0, bent % 128)])
  let s2 := (s1.stallDies s1.dies).knotsOn 2 die (fun d => { d with routers := insertAsc bent d.routers })
  let s3 := (s2.raise (fabPage die) 3)
  let s4 := s3.midStep.foldl (fun s c => s.endStalled c) s3
  { s4 with fab := { s4.fab with
    stalled := true, resumeAt := s.resumeSlot, staged := [], given := [], landed := [], gather := []
    routers := s4.fab.routers.map (fun e => (e.1, { e.2 with hold := [], out := [] })) } }

def execFabricStall (die bent port t : Nat) (s : State) : Host.Outcome State Fault Refusal :=
  ok (s.whenUp (fun s =>
    if s.dieOk die && bent < 128 && port < 6 && !(s.knotDie die).routers.contains bent && !s.fab.stalled then
      (s.at t).stall die bent port
    else s))

def execFabricResume (t : Nat) (s : State) : Host.Outcome State Fault Refusal :=
  ok (s.whenUp (fun s => if s.fab.stalled then
    { s.at t with fab := { s.fab with stalled := false, routers := [], base := s.fab.resumeAt } } else s))

/-! ### Ring ports (R301, R325) -/

def ringOp (w : Nat) : Nat := bits w 63 60
def ringBinding (w : Nat) : Nat := bits w 59 54
def ringOffset (w : Nat) : Nat := bits w 47 0

/-- Do the words from step slot `slot` on cover `n` consecutive ranges from `w`'s on? -/
def Live.ringRun (l : Live) (die port slot w : Nat) : Nat → Bool
  | 0 => true
  | n + 1 => l.ringRun die port slot w n &&
    (match l.wordAt 7 die port 0 (slot + n) with
     | some v => ringOp v == ringOp w && ringBinding v == ringBinding w && ringOffset v == ringOffset w + 128 * n
     | none => false)

/-- Place of a word among 32 that move a whole block with its scribe, if it is one of them (R325). -/
def Live.ringPlace (l : Live) (die port slot w : Nat) : Option Nat :=
  let a := (l.membind (ringBinding w)).1 + ringOffset w
  let i := a % 4096 / 128
  if i ≤ slot && 128 * i ≤ ringOffset w then
    match l.wordAt 7 die port 0 (slot - i) with
    | some v => if ringOffset v + 128 * i == ringOffset w && l.ringRun die port (slot - i) v 32 then some i else none
    | none => none
  else none

def State.ringWord (s : State) (ctx die port slot : Nat) : Option (Live × Nat) :=
  match s.live ctx with
  | some l => (l.wordNow 7 die port 0 slot).map (fun w => (l, w))
  | none => none

/-- The first read of a block failed its CRC and the second agreed (R427). -/
def State.crcOnce (s : State) (a : Nat) : State :=
  let pg := diePage .scrb (dieOf a)
  let scr := s.mem.scribeOf (a / 4096)
  ((s.spend.crcFailed (dieOf a) true 0 (a / 4096 * 4096) (s.draw % 2 ^ 32) scr).bump pg Reg.SCRB_TRANSIENT_COUNT).raise pg 2

/-- May a ring port put the flit of a READ word of fabric slot `n` on its link: the router is at most two slots behind (R294), has not
passed the slot in which the flit reaches it, and the word has not been carried out? -/
def State.ringFree (s : State) (die port n : Nat) : Bool :=
  n + 1 ≤ s.slotOf die (ringBent port) + 2 && s.slotOf die (ringBent port) ≤ n + 1 &&
    !s.isGiven die (ringBent port) (ringIn port) (n + 1)

/-- A READ word puts its range on the port's input of the mesh in the word's slot; its first word checks a block that moves
whole. -/
def State.ringRead (s : State) (l : Live) (die port slot w : Nat) (ready upset : Bool) : State :=
  let a := (l.membind (ringBinding w)).1 + ringOffset w
  let place := l.ringPlace die port slot w
  let s0 := if place = some 0 && upset && !bitAt (scribeFlags (s.mem.scribeOf (a / 4096))) 4 then s.crcOnce a else s
  let r := if place = some 0 then s0.checkBlk (a / 4096) else s0.readBlk a 128 (a / 4096)
  let s1 := r.2
  let side := match place with
    | some i => (s1.mem.scribeOf (a / 4096)).toNat / 4 ^ i % 4
    | none => 0
  let f : Flit := ⟨leNat (s1.mem.bytes a 128), Flag.isPoison r.1, !ready, side, Flag.carried r.1, 0, []⟩
  let s2 := (s1.stage die (ringBent port) (ringIn port) (l.fabSlot slot + 1) [f]).give die (ringBent port) (ringIn port)
    (l.fabSlot slot + 1)
  if ready then s2 else (s2.bump (fabPage die) Reg.FAB_LATE_COUNT).strike l.c s.time

def execRingPortRead (ctx die port slot : Nat) (ready upset : Bool) (s : State) : Host.Outcome State Fault Refusal :=
  ok (s.whenUp (fun s => match s.ringWord ctx die port slot with
    | some (l, w) =>
      if ringOp w = 1 && s.ringFree die port (l.fabSlot slot) then s.ringRead l die port slot w ready upset else s
    | none => s))

/-- Marks that a flit brings to the block it is written to (R300, R301). -/
def flitMarks (f : Flit) : Nat := (fabIn [f] []).marks

/-- A block that has come whole over the mesh is written with its scribe, and checked by the ring that received it (R427). A
poisoned block is written in poison form (R430). -/
def State.ringBlock (s : State) (die b : Nat) (bs : Bytes) (scr : W64) (marks : Nat) : State :=
  let pg := diePage .scrb die
  let crc := crc32c bs
  let s1 := s.writeBytes (b * 4096) bs
  let checks := !bitAt (scribeFlags scr) 4 && !Flag.isPoison (scribeFlags scr ||| marks)
  let wrong := checks && crc != scribeCrc scr
  let s2 := if checks then s1.bump pg Reg.SCRB_CHECK_COUNT else s1
  let s3 := if wrong then s2.crcTwice die 1 (b * 4096) crc scr else s2
  let fl := scribeFlags scr ||| marks ||| b2n wrong
  s3.onMem (fun m =>
    (if Flag.isPoison fl then (cwsOf (b * 4096) 4096).foldl (fun m c => m.poisonCw c) m else m).setScribe b
      (mkScribe (scribeGen scr) (scribeProducer scr) fl (scribeCrc scr)))

/-- What a ring port has gathered of a block: the flits' numbers, latest first, with the scribe and the marks (8 bits each way
up). -/
def State.gathered (s : State) (die port : Nat) : List Nat × Nat := look ([], 0) s.fab.gather (die * 32 + port)
def State.setGather (s : State) (die port : Nat) (x : List Nat × Nat) : State :=
  { s with fab := { s.fab with gather := put ([], 0) s.fab.gather (die * 32 + port) x } }

/-- A WRITE word writes the flit of its slot: by itself a partial write (R426), or as one of the 32 flits of a block. -/
def State.ringWrite (s0 : State) (l : Live) (die port slot w : Nat) (f : Flit) : State :=
  let a := (l.membind (ringBinding w)).1 + ringOffset w
  let s := s0.keepBlks l [a / 4096]
  match l.ringPlace die port slot w with
  | none => s.unitWrite a (leBytes 128 f.data) (s.stepTag l.c) (producer die 5 0) (flitMarks f)
  | some i =>
    let old := if i = 0 then ([], 0) else s.gathered die port
    let flits := f.data :: old.1
    let side := old.2 ||| (f.side % 4) * 4 ^ i ||| (flitMarks f) * 2 ^ 64
    if i = 31 then
      (s.setGather die port ([], 0)).ringBlock die (a / 4096) (flits.reverse.flatMap (fun d => leBytes 128 d))
        (BitVec.ofNat 64 (side % 2 ^ 64)) (side / 2 ^ 64)
    else s.setGather die port (flits, side)

/-- The flit that a WRITE word takes: the one that arrives on its port in its slot; `crcBad` says that it failed its CRC there (R300). -/
def State.ringCome (s : State) (die port n : Nat) (crcBad : Bool) : Flit :=
  let f := (s.ringFlits die port [n]).headD ⟨0, true, false, 0, 0, 0, []⟩
  { f with poison := f.poison || crcBad }

def execRingPortWrite (ctx die port slot : Nat) (crcBad : Bool) (s : State) : Host.Outcome State Fault Refusal :=
  ok (s.whenUp (fun s => match s.ringWord ctx die port slot with
    | some (l, w) =>
      let n := l.fabSlot slot
      if ringOp w = 2 && 1 ≤ n && s.ringPast die port (n + 1) then
        (if crcBad then s.linkFailed die (ringBent port) (ringIn port) n else s).ringWrite l die port slot w
          (s.ringCome die port n crcBad)
      else s
    | none => s))

/-! ### Shares (R308) -/

/-- Would the share registers of a die hold what R308 refuses, were the register at `off` to hold `v`? -/
def State.shareRefused (s : State) (die off v : Nat) : Bool :=
  let t := (off - Reg.FAB_SHARE_T) / 8
  let others := (upFrom 0 16).filter (fun u => off == Reg.FAB_RING_SHARE || u != t)
  let meets := others.any (fun u => v &&& s.share die u != 0)
  if off = Reg.FAB_RING_SHARE then meets || ((upFrom 0 64).filter (fun i => bitAt v i)).length < 4
  else meets || v &&& s.ringShare die != 0 || s.shareUsed die t &&& v != s.shareUsed die t

/-- A write to FAB_SHARE_Tt or FAB_RING_SHARE. -/
def State.shareWrite (s : State) (die off v : Nat) : State :=
  if s.shareRefused die off v then (s.latchErr (fabPage die) Err.shareViolation none 0 0).raise (fabPage die) 2
  else s.wr64 (fabPage die) off v

/-- Is `off` the offset of a share register? -/
def isShareOff (off : Nat) : Bool :=
  off == Reg.FAB_RING_SHARE || (Reg.FAB_SHARE_T ≤ off && off < Reg.FAB_SHARE_USED_T && off % 8 == 0)

def execShareWrite (die off : Nat) (value : W64) (s : State) : Host.Outcome State Fault Refusal :=
  ok (s.hostPage (fabPage die) (fun s => if isShareOff off then s.shareWrite die off value.toNat else s))

/-! ### Reissue (R311) -/

def State.setReissue (s : State) (b : Bool) : State := { s with flash := { s.flash with reissue := b } }

def execKnotReissue (s : State) : Host.Outcome State Fault Refusal := ok (s.hostPage (fabPage 0) (fun s => s.setReissue true))
def execKnotCancelReissue (s : State) : Host.Outcome State Fault Refusal := ok (s.hostPage (fabPage 0) (fun s => s.setReissue false))

/-! ### Lost modules (R41, R299) -/

/-- A mask without a bit. -/
def clearBit (m i : Nat) : Nat := if bitAt m i then m - 2 ^ i else m
/-- Bits set in a mask. -/
def popCount (m : Nat) : Nat := ((upFrom 0 64).filter (fun i => bitAt m i)).length

/-- Is a bridge present from a die to the next (Table 10-2)? -/
def State.hasBridge (s : State) (die : Nat) : Bool := s.dieOk die && s.dieOk ((die + 1) % 4)

/-- The bridge from a die to the next loses a module: it carries ⌊4m/3⌋ channels. -/
def State.bridgeLoss (s : State) (die m : Nat) : State :=
  let mask := clearBit (nth 63 s.fab.modules die) m
  let s1 : State := { s with fab := { s.fab with modules := s.fab.modules.set die mask } }
  let s2 := s1.knotsOn 1 die (fun d => { d with channels := 4 * popCount mask / 3 })
  (s2.raise (fabPage die) 3).raise (fabPage ((die + 1) % 4)) 3

def execBridgeModuleLoss (die module : Nat) (s : State) : Host.Outcome State Fault Refusal :=
  ok (s.whenUp (fun s => if s.hasBridge die && module < 6 && bitAt (nth 63 s.fab.modules die) module then
    s.bridgeLoss die module else s))

/-- A module of a die's host link goes down: the die goes on with the others. The last one to go makes the die unreachable, a
job-ending event (R41, R438, Table 18-3). -/
def State.hostLoss (s : State) (die m : Nat) : State :=
  let s1 : State := { s with fab := { s.fab with hostModules := s.fab.hostModules.set die (clearBit (nth 15 s.fab.hostModules die) m) } }
  ((s1.bump (diePage .mem die) Reg.MEM_HOST_MODULE_LOSS_COUNT).raise (diePage .mem die) 4).logEvent (diePage .mem die) 0
    (if s1.linkUp die then none else some 3) none 0 4 0

def execHostLinkModuleLoss (die module : Nat) (s : State) : Host.Outcome State Fault Refusal :=
  ok (s.whenUp (fun s => if s.dieOk die && module < 4 && bitAt (nth 15 s.fab.hostModules die) module then
    s.hostLoss die module else s))

end Sys2Proof.Machine
end

