-- ==== Sys2Proof/Machine/Patrol.lean ====
section
/-!
DEFINITION. The patrol scrubber and region scrubs (R421), the map-out of a block (R423), poison that the patrol finds before use
(Table 14-10), and MEM_INJECT (R440).
-/

namespace Sys2Proof.Machine

abbrev memPage (die : Nat) : Page := diePage .mem die

/-- First T1 address of a stack's window, and the first address past what is populated (R44). -/
def stackBase (st : Nat) : Nat := t1Base + st * stackSpan
def stackEnd (st : Nat) : Nat := stackBase st + stackBytes

/-- Offset of MEM_SCRUB_POSj of a stack (Table 14-17). -/
def posOff (st : Nat) : Nat := Reg.MEM_SCRUB_POS + 8 * (st % 2)

/-- The codeword that the patrol of a stack reads next: its first one until it has read any. -/
def State.patrolPos (s : State) (st : Nat) : Nat :=
  let a := s.rd64 (memPage (st / 2)) (posOff st)
  if stackBase st ≤ a && a < stackEnd st then a else stackBase st

/-- A stack is in self-refresh while its die is in W3 or W4 (Table 16-4). -/
def State.selfRefresh (s : State) (st : Nat) : Bool := 3 ≤ (s.wakeOf (st / 2)).state

def State.stackOk (s : State) (st : Nat) : Bool := st < 2 * s.dies && bitAt (s.boot.devReady / 16) st

/-- Poison found in a frame that a request holds sets the poison bit of its directory entry (Table 14-10). -/
def State.patrolFound (s : State) (a : Nat) : State :=
  let die := dieOf a
  let p := s.pool die
  if p.base ≤ a && a < p.base + p.frames * 0x10000 then
    match s.holderAt die a with
    | some h => if h.orphan then s else s.poisonEntry h
    | none => s
  else s

/-- The patrol or a region scrub reads a codeword; `readback`: one that it writes in poison form reads back so. -/
def State.scrubCw (s : State) (readback : Bool) (cw : Nat) : State :=
  let bad := s.mem.cwBad cw
  let s1 := s.touchCw true (some readback) cw
  if bad then s1.patrolFound (cw * 64) else s1

/-- A patrol read: the next codeword in ascending address. -/
def State.patrolRead (s : State) (st : Nat) (readback : Bool) : State :=
  let a := s.patrolPos st
  let next := if a + 64 < stackEnd st then a + 64 else stackBase st
  (s.scrubCw readback (a / 64)).wr64 (memPage (st / 2)) (posOff st) next

def execPatrolScrubRead (stack : Nat) (readback : Bool) (s : State) : Host.Outcome State Fault Refusal :=
  ok (s.whenUp (fun s =>
    if s.stackOk stack && !s.selfRefresh stack && (s.rd (memPage (stack / 2)) Reg.MEM_SCRUB_CFG).getLsbD 31 then
      s.patrolRead stack readback
    else s))

/-- Codewords of a region that are not clean: the others read without effect. -/
def State.regionBad (s : State) (base st : Nat) : List Nat :=
  (s.mem.chk.map (fun e => e.1)).filter (fun cw => base ≤ cw * 64 && cw * 64 < base + 2 ^ 28 && cw * 64 < stackEnd st)

/-- A region scrub reads its region and ends. -/
def State.scrubRegion (s : State) (st base : Nat) (readback : Bool) : State :=
  let s1 := s.onMem (fun m => { m with regionScrub := put none m.regionScrub st none })
  (s.regionBad base st).foldl (fun s cw => s.scrubCw readback cw) s1

def execRegionScrub (stack : Nat) (readback : Bool) (s : State) : Host.Outcome State Fault Refusal :=
  ok (s.whenUp (fun s =>
    if s.stackOk stack && !s.selfRefresh stack then
      match look none s.mem.regionScrub stack with
      | some base => s.scrubRegion stack base readback
      | none => s
    else s))

/-! ### Map-out (R423) -/

/-- One codeword goes to the spare: fresh where it is clean or correctable, else in poison form. -/
def Mem.copyCw (m : Mem) (cw : Nat) : Mem :=
  match classify (m.synd cw) with
  | .clean => m
  | .fix p e =>
    let a := cw * 64 + (67 - p)
    ((if 4 ≤ p then m.putByte a (m.byte a ^^^ BitVec.ofNat 8 e) else m)).setSynd cw 0
  | .poison | .bad => m.poisonCw cw

/-- The copy of a block is complete. -/
def State.endMapout (s : State) (blk : Nat) : State :=
  let st := stackOf (blk * 4096)
  let pg := memPage (st / 2)
  let cws := cwsOf (blk * 4096) 4096
  let bad := cws.any (fun c => s.mem.cwBad c)
  let s1 := s.onMem (fun m =>
    let m1 := cws.foldl (fun m c => m.copyCw c) m
    let m2 := if bad then m1.orScribe blk Flag.poison else m1
    { m2 with copying := m2.copying.filter (fun b => b != blk)
              mapped := put [] m2.mapped st (insertAsc blk (look [] m2.mapped st)) })
  let s2 : State := { s1 with flash := { s1.flash with mapouts := insertAsc blk s1.flash.mapouts } }
  (((s2.bump pg Reg.MEM_MAPOUT_COUNT).raise pg 2).logEvent pg 0 none none 0 2 (blk * 4096)).startRegion (blk * 4096)

def execMapoutComplete (block : Nat) (s : State) : Host.Outcome State Fault Refusal :=
  ok (s.whenUp (fun s => if s.mem.copying.contains block then s.endMapout block else s))

/-! ### Fault injection (R440) -/

/-- XOR 0x01 into data byte `i` of a codeword, its check bytes as they are: the symbol at x^(67 − i) is in error. -/
def Mem.flip (m : Mem) (cw i : Nat) : Mem :=
  (m.putByte (cw * 64 + i) (m.byte (cw * 64 + i) ^^^ 1)).setSynd cw (m.synd cw ^^^ syndOf (67 - i) 1)

/-- A write of MEM_INJECT.kind (Table 14-20). -/
def Mem.inject (m : Mem) (cw kind : Nat) : Mem :=
  if kind = 1 then m.flip cw 0
  else if kind = 2 then (m.flip cw 0).flip cw 1
  else if kind = 3 then m.poisonCw cw
  else m

def State.memInject (s : State) (die kind : Nat) : State :=
  let a := s.rd64 (memPage die) Reg.MEM_INJECT_ADDR / 64 * 64
  if s.populated a 64 && dieOf a == die && s.stackOk (stackOf a) then s.onMem (fun m => m.inject (a / 64) kind) else s

def execMemInject (die kind : Nat) (s : State) : Host.Outcome State Fault Refusal :=
  ok (s.hostPage (memPage die) (fun s => s.memInject die kind))

end Sys2Proof.Machine
end

