-- ==== Sys2Proof/Machine/Power.lean ====
section
/-!
DEFINITION. Power, wake states, temperature and shutdown (chapter 16).
-/

namespace Sys2Proof

/-- Table 16-3: sustained and peak power limits in W. -/
def Variant.sustained : Variant → Nat
  | .vxj4t => 2600
  | .vxj4s => 2400
  | .vxj2s => 1350
def Variant.peak : Variant → Nat
  | .vxj4t => 3000
  | .vxj4s => 2800
  | .vxj2s => 1550

end Sys2Proof

namespace Sys2Proof.Machine

abbrev pwrPage (die : Nat) : Page := diePage .pwr die
abbrev thmPage (die : Nat) : Page := diePage .thm die

def State.onPwr (s : State) (f : Pwr → Pwr) : State := { s with pwr := f s.pwr }

/-- Run an effect while the standby rail is up (R472). -/
def State.whenOn (s : State) (f : State → State) : State := if s.boot.phase = 0 then s else f s

/-- Count an event on a block's page of every present die, and raise its bit. -/
def State.countDies (s : State) (b : Block) (off bit : Nat) : Nat → State
  | 0 => s
  | n + 1 => ((s.countDies b off bit n).bump (diePage b n) off).raise (diePage b n) bit

/-! ### The pacer (R474, R475, R481) -/

/-- A demand moves by 25 ps, within 1,000 to 1,300 ps. -/
def demandUp (d : Nat) : Nat := min 1300 (d + 25)
def demandDown (d : Nat) : Nat := max 1000 (d - 25)

/-- Both demands take effect: the pacer is the larger one. -/
def State.setDemands (s : State) (power thermal : Nat) : State :=
  s.onPwr (fun p => { p with power := power, thermal := thermal, pacer := max power thermal })

/-- The power demand changes: a rise above 1,000 ps is counted (R487). -/
def State.powerDemand (s : State) (d : Nat) : State :=
  let s1 := s.setDemands d s.pwr.thermal
  if s.pwr.power ≤ 1000 && 1000 < d then s1.countDies .pwr Reg.PWR_THROTTLE_COUNT 3 s.dies else s1

/-- The thermal demand changes: throttle starts or ends (R488). -/
def State.thermalDemand (s : State) (d : Nat) : State :=
  let s1 := s.setDemands s.pwr.power d
  if s.pwr.thermal ≤ 1000 && 1000 < d then s1.countDies .thm Reg.THM_THROTTLE_COUNT 1 s.dies
  else if 1000 < s.pwr.thermal && d ≤ 1000 then s1.raiseDies .thm 2 s.dies
  else s1

/-! ### Package power (R471 to R474) -/

/-- The limits in force (Table 16-12). -/
def State.sustLimit (s : State) : Nat := max 800 (min s.pwr.limitSust s.variant.sustained)
def State.peakLimit (s : State) : Nat := min s.pwr.limitPeak s.variant.peak

/-- A power reading: it enters the energy, the time above the sustained limit runs from its first reading, and one above the
peak limit sets the demand to 1,300 ps at once. -/
def State.powerSample (s : State) (watts : Nat) (dies : List Nat) (t : Nat) : State :=
  let since := if s.sustLimit < watts then some (s.pwr.aboveSince.getD t) else none
  let s1 := s.onPwr (fun p => { p with watts := watts, dieW := dies, energy := p.energy + watts, aboveSince := since })
  if s.peakLimit < watts then s1.powerDemand 1300 else s1

def execPowerSample (watts : Nat) (dies : List Nat) (t : Nat) (s : State) : Host.Outcome State Fault Refusal :=
  ok (s.whenOn (fun s => if s.shut.isNone then (s.at t).powerSample watts dies (s.at t).time else s))

/-- Is the input above a limit at `t` (R474)? -/
def State.overPower (s : State) (average t : Nat) : Bool :=
  (match s.pwr.aboveSince with
   | some t0 => decide (t0 + 5000000 < t)
   | none => false) || decide (s.sustLimit < average) || decide (s.peakLimit < s.pwr.watts)

/-- The power controller's step; `average` is the 1 s average of the input. -/
def State.powerStep (s : State) (average t : Nat) : State :=
  if s.overPower average t then s.powerDemand (demandUp s.pwr.power) else s.powerDemand (demandDown s.pwr.power)

def execPowerDemandStep (average t : Nat) (s : State) : Host.Outcome State Fault Refusal :=
  ok (s.whenOn (fun s => if s.shut.isNone then (s.at t).powerStep average (s.at t).time else s))

/-- The input leaves 46 V to 54 V (voltages in 10 mV). -/
def State.inputWarn (s : State) (v : Nat) : State :=
  let s1 := s.onPwr (fun p => { p with voltage := v, inputWarn := true })
  if s.pwr.inputWarn then s1
  else (s1.countDies .pwr Reg.PWR_INPUT_WARN_COUNT 4 s.dies).logEvent (pwrPage 0) 0 none none 0 4 0

def execInputWarn (voltage t : Nat) (s : State) : Host.Outcome State Fault Refusal :=
  ok (s.whenOn (fun s => if voltage < 4600 || 5400 < voltage then (s.at t).inputWarn voltage else s))

def execInputWithinRange (voltage t : Nat) (s : State) : Host.Outcome State Fault Refusal :=
  ok (s.whenOn (fun s => if 4600 ≤ voltage && voltage ≤ 5400 then
    (s.at t).onPwr (fun p => { p with voltage := voltage, inputWarn := false }) else s))

/-! ### Images in the log flash (R491, R492, R496) -/

/-- Bytes of the flash region of each image type (Table 17-2). -/
def regionBytes (type : Nat) : Nat := if type = 1 then 0x800000 else if type = 2 then 0x100000 else 0x2000000

def imgVersion (b : Bytes) : Nat := fieldB b 8 4
def imgBytes (b : Bytes) : Nat := fieldB b 0x10 8
/-- An image without what the region holds after it. -/
def imgWhole (b : Bytes) : Bytes := b.take (imgBytes b)

/-- Does an image verify as one of its type (R491)? -/
def flashOk (type : Nat) (b : Bytes) : Bool :=
  let n := imgBytes b
  fieldB b 0 4 == 0x474D4942 && fieldB b 4 2 == 1 && fieldB b 6 1 == type && 1 ≤ type && type ≤ 3 && 3440 ≤ n &&
    n ≤ regionBytes type && n ≤ b.length && (b.drop 0x18).take 32 == Config.shake256_256 Config.firmwareKey &&
    Config.mldsaVerify Config.firmwareKey (Config.shake256_512 (b.take (n - 3312))) ((b.drop (n - 3312)).take 3309)

def State.image (s : State) (type copy : Nat) : Bytes := nth [] (nth [] s.flash.images (type - 1)) copy
def State.highest (s : State) (type : Nat) : Nat := nth 0 s.flash.highest (type - 1)

/-- A copy of an image is written. -/
def State.setImage (s : State) (type copy : Nat) (b : Bytes) : State :=
  { s with flash := { s.flash with
    images := s.flash.images.set (type - 1) ((nth [] s.flash.images (type - 1)).set copy b) } }

/-- The bytes of an image in T1, by the length in its header; an image that T1 cannot hold has none. -/
def State.imageAt (s : State) (a : Nat) : Bytes :=
  if !s.populated a 64 then []
  else
    let n := imgBytes (s.mem.view a 64)
    if n ≤ 0x2000000 && s.populated a n then s.mem.view a n else s.mem.view a 64

/-- Step 1 of an update: the image verifies, and its version is at least the highest accepted one. -/
def State.updateOk (s : State) (type : Nat) (b : Bytes) : Bool := flashOk type b && s.highest type ≤ imgVersion b

/-- The copy of a type that did not boot at the last power-up. -/
def State.spareCopy (s : State) (type : Nat) : Nat := 1 - bits s.boot.copyB (type - 1) (type - 1)

/-- An update in progress is cut off. Whether its copy was being written is a free value: a shutdown leaves such a copy invalid
(R496), and a restart lets the write complete first (Table 18-4). -/
def State.cutUpdate (s : State) (completes : Bool) : State :=
  match s.ident.updating with
  | none => s
  | some u =>
    let b := s.imageAt u.2
    let s1 : State := { s.spend with ident := { s.ident with updating := none } }
    if s.updateOk u.1 b && s.draw % 2 = 1 then s1.setImage u.1 (s.spareCopy u.1) (if completes then imgWhole b else []) else s1

/-! ### Shutdown (R482 to R484) -/

/-- Readings of a die that count: in W4 its ring oscillators are off and its diode alone reports (R479). -/
def State.readings (s : State) (die : Nat) : List (Nat × Int) :=
  let l := nth [] s.sensors die
  let all := (upFrom 0 145).map (fun i => (i, (nth Sensor.reset l i).temp))
  if (s.wakeOf die).state = 4 then all.filter (fun e => e.1 == 144) else all

/-- The highest reading of a list, with its sensor, the lowest sensor on a tie. -/
def hottest : List (Nat × Int) → Nat × Int
  | [] => (0, 0)
  | [e] => e
  | e :: es => let r := hottest es; if r.2 ≤ e.2 then e else r

/-- Does any sensor of any present die read `x` or more? -/
def State.anyAbove (s : State) (x : Int) : Bool :=
  (upFrom 0 s.dies).any (fun d => (s.readings d).any (fun e => decide (x ≤ e.2)))

/-- The package shuts down (Table 16-5, time 0): the controller captures the record; no step or operation goes on. -/
def State.shutdown (s : State) (cause die sensor : Nat) (temp : Int) : State :=
  if s.shut.isSome || s.boot.phase < 2 then s
  else
    let r : Trip := ⟨s.flash.tripSeq + 1, s.time, cause, die, sensor, temp, s.pwr.inlet,
      (upFrom 0 4).map (fun d => if s.dieOk d then (hottest (s.readings d)).2 else 0), s.pwr.voltage, s.pwr.watts, s.pwr.pacer⟩
    let s0 := s.cutUpdate false
    let s1 : State := { s0 with
      shut := some ⟨0, r, s.time⟩
      boot := { s.boot with phase := 1, step := 0, hostReleased := false, devReady := 0 } }
    s1.logEvent (thmPage die) 0 (if cause = 1 then some 3 else none) none 0 0 0

def execVoltageShutdown (isOver : Bool) (voltage t : Nat) (s : State) : Host.Outcome State Fault Refusal :=
  ok (s.whenOn (fun s =>
    if (isOver && 5600 < voltage) || (!isOver && voltage < 4400) then
      ((s.at t).onPwr (fun p => { p with voltage := voltage })).shutdown (if isOver then 3 else 2) 0 0 0
    else s))

/-- Pages that the standby rail and the management controller keep: page indexes 0x00 to 0x07 (Table 02-4, R472). -/
def keptKey (k : Nat) : Bool := k / 0x400 % 0x10000 < 8

/-- What a power cycle leaves of the links: which modules work. -/
def Fab.links (f : Fab) : Fab := { Fab.reset with modules := f.modules, hostModules := f.hostModules }

/-- What a power cycle leaves of the arrays: the retired ones, with their causes (R135). -/
def retiredOnly (m : Sparse Arr) : Sparse Arr :=
  (m.filter (fun a => a.2.retired != 0)).map (fun a => (a.1, { Arr.reset with retired := a.2.retired }))

/-- The core, SRAM and analogue rails are down: what the frame dies held is gone. T1 and the optics still stand. -/
def State.coreOff (s : State) : State :=
  { State.reset with
    pending := s.pending, variant := s.variant, time := s.time, free := s.free, regs := keep keptKey s.regs, out := s.out
    sent := s.sent, mem := s.mem, log := s.log, flash := s.flash, ident := s.ident, boot := s.boot, pwr := s.pwr
    sensors := s.sensors, shut := s.shut, optics := s.optics, snap := s.snap, fab := s.fab.links, arrs := retiredOnly s.arrs }

/-- The record is in the flash: THM_TRIP follows it at the next power-up, and the newer record takes the latch (R484, R486). -/
def State.recordTrip (s : State) (r : Trip) : State :=
  { s with shut := none, flash := { s.flash with trips := s.flash.trips ++ [r], tripSeq := r.seq, acked := false } }

/-- The next stage of Table 16-5 comes due. -/
def State.nextStage (s : State) (x : Shutdown) : State :=
  if x.stage = 0 then { s with shut := some { x with stage := 1 } }
  else if x.stage = 1 then { s.coreOff with shut := some { x with stage := 2 } }
  else if x.stage = 2 then { s with mem := Mem.reset, optics := [], shut := some { x with stage := 3 } }
  else s.recordTrip x.record

def execShutdownStage (t : Nat) (s : State) : Host.Outcome State Fault Refusal :=
  ok (match s.shut with
    | some x => (s.at t).nextStage x
    | none => s)

/-- The standby rail goes down: everything but the log flash is lost. A record in progress has been finished (R471). -/
def State.standbyLoss (s : State) : State :=
  let s0 := s.cutUpdate false
  let s1 := match s.shut with
    | some x => s0.recordTrip x.record
    | none => s0
  { State.reset with
    pending := s1.pending, variant := s1.variant, free := s1.free, out := s1.out, sent := s1.sent, flash := s1.flash
    log := { s1.log with buffer := [], nextSeq := (s1.log.ring.getLast?.elim 0 (fun r => r.seq)) + 1 }
    fab := s1.fab.links, arrs := retiredOnly s1.arrs }

def execStandbyLoss (s : State) : Host.Outcome State Fault Refusal := ok (s.whenOn (fun s => s.standbyLoss))

/-- Software acknowledges a trip (R485). -/
def State.tripAck (s : State) (die v : Nat) : State :=
  if v != s.flash.tripSeq || s.anyAbove 1360 then s.latchErr (thmPage die) Err.notReady none 0 0
  else ({ s with flash := { s.flash with acked := true } } : State).logEvent (thmPage die) 0 none none 0 0 0

def execThmTripAck (die : Nat) (value : W32) (s : State) : Host.Outcome State Fault Refusal :=
  ok (s.hostPage (thmPage die) (fun s => s.tripAck die value.toNat))

/-! ### Temperature sensing (R480) -/

/-- Insert into a list in ascending order. -/
def insertInt (x : Int) : List Int → List Int
  | [] => [x]
  | y :: ys => if x ≤ y then x :: y :: ys else y :: insertInt x ys
def sortInts (l : List Int) : List Int := l.foldl (fun acc x => insertInt x acc) []

/-- The median, with an even count the mean of the middle two; `up` rounds a half up. The spec does not round it. -/
def median (up : Nat) (l : List Int) : Int :=
  let q := sortInts l
  let n := q.length
  if n % 2 = 1 then nth 0 q (n / 2) else (nth 0 q (n / 2 - 1) + nth 0 q (n / 2) + (up % 2 : Nat)) / 2

/-- Twice the median, exactly. -/
def median2 (l : List Int) : Int :=
  let q := sortInts l
  let n := q.length
  if n % 2 = 1 then 2 * nth 0 q (n / 2) else nth 0 q (n / 2 - 1) + nth 0 q (n / 2)

/-- Neighbours of a ring oscillator. -/
def neighbours (i : Nat) : List Nat :=
  if i < 128 then (upFrom 0 4).filterMap (fun o => farBent i o)
  else [128 + (i - 128 + 1) % 16, 128 + (i - 128 + 15) % 16]

/-- Own readings of the unbroken neighbours of a sensor. -/
def nearTemps (l : List Sensor) (i : Nat) : List Int :=
  ((neighbours i).filter (fun j => !(nth Sensor.reset l j).broken)).map (fun j => (nth Sensor.reset l j).raw)

/-- The reading of a sensor after replacement: the median of its unbroken neighbours, or the diode's with fewer than two. -/
def replaced (up : Nat) (l : List Sensor) (i : Nat) : Int :=
  let x := nth Sensor.reset l i
  if !x.broken || i = 144 then x.raw
  else
    let n := nearTemps l i
    if n.length < 2 then (nth Sensor.reset l 144).raw else median up n

/-- Replace readings; each replacement may draw the rounding of its median. -/
def replaceAll (draw : Nat) (l : List Sensor) : List Sensor :=
  (upFrom 0 145).map (fun i => { nth Sensor.reset l i with temp := replaced (Config.freeValue (draw + i)) l i })

/-- Sensors that run on a die in its wake state. -/
def State.senses (s : State) (die i : Nat) : Bool := s.dieOk die && (i == 144 || (s.wakeOf die).state != 4)

/-- One die's sensors are read. -/
def State.readDie (s : State) (die : Nat) (vals : List Int) : List Sensor :=
  let old := nth [] s.sensors die
  let raw := (upFrom 0 145).map (fun i =>
    let x := nth Sensor.reset old i
    if s.senses die i then { x with raw := nth x.raw vals i } else x)
  let new := replaceAll (s.free + 145 * die) raw
  (upFrom 0 145).map (fun i =>
    let x := nth Sensor.reset new i
    if s.senses die i then { x with hot := decide (1728 ≤ x.temp) } else nth Sensor.reset old i)

/-- The first sensor, of those that are read, that reads 108 °C or more for the second time running (R482). -/
def tripOf (reads : Nat → Nat → Bool) (old new : List (List Sensor)) : Option (Nat × Nat × Int) :=
  ((upFrom 0 4).flatMap (fun d => (upFrom 0 145).map (fun i => (d, i)))).findSome? (fun k =>
    let o := nth Sensor.reset (nth [] old k.1) k.2
    let n := nth Sensor.reset (nth [] new k.1) k.2
    if reads k.1 k.2 && o.hot && n.hot then some (k.1, k.2, n.temp) else none)

/-- CAL_TEMP.t_now of a bent follows its sensor. A change of more than 5 °C from t_cal raises the trigger (R283); one from the value at
the start of a running recalibration is remembered to its end (Table 09-4). -/
def State.bentTemp (s : State) (die bent : Nat) : State :=
  let t := (nth Sensor.reset (nth [] s.sensors die) bent).temp
  let b := s.calBent die bent
  let s1 := s.setCal die bent { b with
    tNow := t
    moved := b.moved || b.running.any (fun t0 => decide (80 < (t - t0).natAbs)) }
  if s.ready && 80 < (t - b.tCal).natAbs && b.running.isNone then s1.trigger die bent 0 else s1

def State.bentTemps (s : State) (die : Nat) : Nat → State
  | 0 => s
  | n + 1 =>
    let s1 := s.bentTemps die n
    if s1.senses die n then s1.bentTemp die n else s1

def State.dieTemps (s : State) : Nat → State
  | 0 => s
  | n + 1 => (s.dieTemps n).bentTemps n 128

/-- Every sensor is read. -/
def State.sensorRead (s : State) (r : List (List Int)) : State :=
  let new := (upFrom 0 4).map (fun d => if s.dieOk d then s.readDie d (nth [] r d) else nth [] s.sensors d)
  let s1 : State := { s with sensors := new, free := s.free + 580 }
  let s2 := s1.dieTemps s1.dies
  match tripOf s.senses s.sensors new with
  | some k => s2.shutdown 1 k.1 k.2.1 k.2.2
  | none => s2

def execSensorRead (readings : List (List Int)) (t : Nat) (s : State) : Host.Outcome State Fault Refusal :=
  ok (s.whenOn (fun s => if s.shut.isNone then (s.at t).sensorRead readings else s))

/-- Does a ring oscillator differ from the median of its unbroken neighbours by more than 6 °C? -/
def strays (l : List Sensor) (i : Nat) : Bool :=
  let n := nearTemps l i
  !(nth Sensor.reset l i).broken && 2 ≤ n.length && 192 < (2 * (nth Sensor.reset l i).raw - median2 n).natAbs

/-- Does the diode read outside −40 to 150 °C, or more than 10 °C from the median of the I/O ring's sensors? -/
def diodeOff (l : List Sensor) : Bool :=
  let x := (nth Sensor.reset l 144).raw
  decide (x < -640) || decide (2400 < x) ||
    320 < (2 * x - median2 ((upFrom 128 16).map (fun i => (nth Sensor.reset l i).temp))).natAbs

/-- The cross-check of one die. -/
def State.crossCheck (s : State) (die : Nat) : State :=
  let l := nth [] s.sensors die
  let bad := (upFrom 0 144).filter (fun i => strays l i)
  let marked := (upFrom 0 145).map (fun i =>
    let x := nth Sensor.reset l i
    if bad.contains i then { x with broken := true } else x)
  let new := replaceAll (s.free + 145 * die) marked
  let s1 : State := { s with sensors := s.sensors.set die new }
  let s2 := s1.onPwr (fun p => { p with diodeBad := p.diodeBad.set die (nth false p.diodeBad die || diodeOff new) })
  if bad.isEmpty then s2 else (s2.bumpN (thmPage die) Reg.THM_BROKEN_COUNT bad.length).raise (thmPage die) 3

def State.crossChecks (s : State) : Nat → State
  | 0 => s
  | n + 1 =>
    let s1 := s.crossChecks n
    if (s1.wakeOf n).state = 4 then s1 else s1.crossCheck n

def execSensorCrossCheck (t : Nat) (s : State) : Host.Outcome State Fault Refusal :=
  ok (s.whenOn (fun s => if s.shut.isNone then
    let s1 := (s.at t).crossChecks s.dies
    { s1 with free := s1.free + 580 } else s))

/-- The thermal controller's step, every 100 µs (R481). -/
def State.thermalStep (s : State) : State :=
  let pages := upFrom 0 s.dies
  let s1 := if 1000 < s.pwr.thermal then pages.foldl (fun s d => s.bumpN (thmPage d) Reg.THM_THROTTLE_US 100) s else s
  if s.anyAbove 1520 then s1.thermalDemand (demandUp s.pwr.thermal)
  else if s.anyAbove 1488 then s1
  else s1.thermalDemand (demandDown s.pwr.thermal)

def execThermalDemandStep (t : Nat) (s : State) : Host.Outcome State Fault Refusal :=
  ok (s.whenOn (fun s => if s.shut.isNone then (s.at t).thermalStep else s))

/-! ### Coolant (R476) -/

def State.setCoolant (s : State) (inlet outlet : Int) (warn : Bool) : State :=
  s.onPwr (fun p => { p with inlet := inlet, outlet := outlet, coolantWarn := warn })

def execCoolantWarn (inlet outlet : Int) (t : Nat) (s : State) : Host.Outcome State Fault Refusal :=
  ok (s.whenOn (fun s => if 560 < inlet then
    let s1 := (s.at t).setCoolant inlet outlet true
    if s.pwr.coolantWarn then s1
    else (s1.countDies .thm Reg.THM_COOLANT_WARN_COUNT 4 s.dies).logEvent (thmPage 0) 0 none none 0 4 0
   else s))

def execCoolantInletNormal (inlet outlet : Int) (t : Nat) (s : State) : Host.Outcome State Fault Refusal :=
  ok (s.whenOn (fun s => if inlet ≤ 560 then (s.at t).setCoolant inlet outlet false else s))

/-! ### Wake states (R477 to R479, R486) -/

/-- Wake times in µs (Table 16-4). -/
def wakeTime (x : Nat) : Nat := nth 0 [0, 2, 60, 2000, 40000] x
/-- The deepest state a die may take: W2 on F0. -/
def deepest (die : Nat) : Nat := if die = 0 then 2 else 4

/-- Does a running plan name the die, or a calibration run on it? -/
def State.dieUsed (s : State) (die : Nat) : Bool :=
  s.ctxs.any (fun e => match s.live e.1 with
    | some l => bitAt l.p.img.dies die
    | none => false) ||
  s.cals.any (fun e => e.1 / 128 == die && e.2.running.isSome)

/-- Does a descriptor, transfer, spill, prefetch, weight feed or seal stand in flight at the die? -/
def State.dieBusy (s : State) (die : Nat) : Bool :=
  s.que.flights.any (fun f => f.home == die) ||
  s.arrs.any (fun a => a.1 / 512 == die && (a.2.loading.isSome || !a.2.waiting.isEmpty)) ||
  (s.pool die).transit != 0 || !(s.pool die).fetch.isEmpty ||
  s.ctxs.any (fun e => match e.2 with
    | some x => (match x.sealOp with
      | some o => o.map.any (fun m => m.2.2 == die)
      | none => false)
    | none => false) ||
  s.gens.any (fun e => match e.2 with
    | some g => g.shards.any (fun h => h.home == die && !h.passed)
    | none => false)

def State.dieAssigned (s : State) (die : Nat) : Bool := s.owners.any (fun e => e.1 / 128 == die && e.2.isSome)

/-- Do KV frames or shard areas stand on the die? -/
def State.dieHolds (s : State) (die : Nat) : Bool :=
  (s.pool die).alloc + (s.pool die).transit != 0 ||
  s.gens.any (fun e => match e.2 with
    | some g => g.shards.any (fun h => h.home == die)
    | none => false)

/-- Is a synchronisation object (R352), a queue or a channel homed on the die? -/
def State.dieHomes (s : State) (die : Nat) : Bool :=
  s.handles.sync.slots.any (fun e => e.2.live && e.1 % s.dies == die) ||
  s.que.queues.any (fun e => match e.2 with
    | some q => q.home == die
    | none => false) ||
  s.chans.any (fun e => match e.2 with
    | some c => c.home == die
    | none => false)

/-- PWR_STATUS.blockers (Table 16-8). -/
def State.blockers (s : State) (die : Nat) : Nat :=
  b2n (s.dieUsed die) + 2 * b2n (s.dieBusy die) + 4 * b2n (s.dieAssigned die) + 8 * b2n (s.dieHolds die) + 16 * b2n (s.dieHomes die)

/-- Do the entry conditions of state `x` and of every shallower one hold? -/
def State.mayEnter (s : State) (die x : Nat) : Bool :=
  let b := s.blockers die
  if x ≤ 2 then b % 2 = 0 else if x = 3 then b % 4 = 0 else b = 0

/-- The deepest state whose wake time is within the latency. -/
def allowedState (die latency : Nat) : Nat :=
  ((upFrom 1 (deepest die)).filter (fun x => wakeTime x ≤ latency)).foldl max 0

def State.latency (s : State) (die : Nat) : Nat := (s.rd (pwrPage die) Reg.PWR_WAKE_LAT).toNat

/-- The state that a die qualifies for. -/
def State.qualified (s : State) (die : Nat) : Nat :=
  ((upFrom 1 (allowedState die (s.latency die))).filter (fun x => s.mayEnter die x)).foldl max 0

/-- In W3 a port that is UP, with no packet unacknowledged and no operation waiting, goes DARK (R452). -/
def State.dim (s : State) (p : Nat) : State :=
  let used := s.chans.any (fun e => match e.2 with
    | some c => c.port == p && !(c.unacked.isEmpty && c.queued.isEmpty && c.ops.isEmpty)
    | none => false)
  if ((s.port p).state == 2 || (s.port p).state == 3) && !used then
    (s.setPort p { s.port p with state := 4 }).raise (portPage p) 1
  else s

/-- A DARK port relights. -/
def State.lit (s : State) (p : Nat) : State := if (s.port p).state = 4 then s.trained p else s

/-- A die enters a wake state. -/
def State.enterWake (s0 : State) (die x : Nat) : State :=
  let s := if 3 ≤ x then (upFrom (8 * die) 8).foldl (fun s p => s.dim p) s0 else s0
  ((((s.setWake die { s.wakeOf die with state := x }).bump (pwrPage die) Reg.PWR_ENTRY_COUNT).raise (pwrPage die) 1)).logEvent
    (pwrPage die) 0 none none 0 1 0

/-- After the idle hold a die enters the deepest state its latency and conditions allow. -/
def execWakeStateEntry (die t : Nat) (s : State) : Host.Outcome State Fault Refusal :=
  ok (s.whenUp (fun s =>
    let w := s.wakeOf die
    if s.dieOk die && !w.waking && w.state < s.qualified die then (s.at t).enterWake die (s.qualified die) else s))

def execPwrWake (die : Nat) (s : State) : Host.Outcome State Fault Refusal :=
  ok (s.hostPage (pwrPage die) (fun s => s.wakeDemand die))

def execWakeStart (die t : Nat) (s : State) : Host.Outcome State Fault Refusal :=
  ok (s.whenUp (fun s => if s.dieOk die then (s.at t).wakeDemand die else s))

/-- What a die that leaves W4 finds on its arrays: the ready state of R123, with coefficient banks restored (R479, R287). -/
def Arr.woken (x : Arr) : Arr :=
  { Arr.reset with retired := x.retired, activeCoef := x.activeCoef, coef0 := x.coef0, coef1 := x.coef1
                   cal := { x.cal with wins := [] } }

/-- The core and SRAM rails of a die come back from W4. -/
def State.leaveW4 (s : State) (die : Nat) : State :=
  { s with
    arrs := (s.arrs.map (fun a => if a.1 / 512 = die then (a.1, a.2.woken) else a)).filter (fun a => a.2 != Arr.reset)
    bents := s.bents.filter (fun b => b.1 / 128 != die)
    atts := s.atts.filter (fun a => a.1 / 16 != die)
    grads := s.grads.filter (fun g => g.1 / 16 != die) }

/-- A wake ends, in W0 or in the state that a lowered latency allows. -/
def State.wakeEnd (s : State) (die : Nat) : State :=
  let w := s.wakeOf die
  let pg := pwrPage die
  let s0 := if w.state = 4 then s.leaveW4 die else s
  let s1 := if 3 ≤ w.state && w.target < 3 then (upFrom (8 * die) 8).foldl (fun s p => s.lit p) s0 else s0
  let s2 := (s1.setWake die ⟨w.target, false, 0, 0⟩).wr pg Reg.PWR_LAST_WAKE
    (packW [(29, w.state), (0, min ((s.time - w.since) / 1000) (2 ^ 29 - 1))])
  let s3 := if w.target = 0 then (s2.bump pg Reg.PWR_WAKE_COUNT).raise pg 2 else s2
  s3.logEvent pg 0 none none 0 2 0

def execWakeComplete (die t : Nat) (s : State) : Host.Outcome State Fault Refusal :=
  ok (s.whenUp (fun s => if s.dieOk die && (s.wakeOf die).waking then (s.at t).wakeEnd die else s))

/-- PWR_WAKE_LAT is written: a die deeper than the new value allows, or on its way to such a state, wakes at once to the deepest
state it does allow. -/
def State.setLatency (s : State) (die v : Nat) : State :=
  let s1 := s.wr (pwrPage die) Reg.PWR_WAKE_LAT (BitVec.ofNat 32 v)
  let w := s.wakeOf die
  if allowedState die v < (if w.waking then w.target else w.state) then
    s1.setWake die { w with waking := true, since := if w.waking then w.since else s.time, target := allowedState die v }
  else s1

def execPwrWakeLatWrite (die : Nat) (value : W32) (s : State) : Host.Outcome State Fault Refusal :=
  ok (s.hostPage (pwrPage die) (fun s => s.setLatency die value.toNat))

end Sys2Proof.Machine
end

