-- ==== Sys2Proof/Machine/PowerCal.lean ====
section
/-!
DEFINITION. Power-up calibration of the arrays: the phases P1 to P6 of Table 09-1 (R272 to R276), and the arrays it retires (R275).
-/

namespace Sys2Proof.Machine

/-! ### The patterns (R273) -/

/-- A rank-one pattern: cell (i, j) is u_i · w_j. -/
def rankOne (u w : List Int) (i j : Nat) : Int := nth 0 u i * nth 0 w j

/-- A high check slice as P3 writes it: H + δ, δ = +1 when H < 15 and −1 otherwise. -/
def fitSlice (h : Int) : Int := if h < 15 then h + 1 else h - 1

/-- The cells of a pattern for the fit of P3: the high check slices of both sides shifted. -/
def fitCell (data : Nat → Nat → Int) (r c : Nat) : Int :=
  let v := fullCell data r c
  let high := if r < 512 then decide (512 ≤ c) && c % 2 == 0 else decide (c < 512) && r % 2 == 0
  if high then fitSlice v else v

/-- The two patterns, A and B, with the LFSR after them. -/
def patterns (r : Nat) : (Nat → Nat → Int) × (Nat → Nat → Int) × Nat :=
  let u := drawVals (evenly 15) 512 r
  let w := drawVals [-1, 1] 512 u.2
  let u' := drawVals (evenly 5) 512 w.2
  let w' := drawVals [-3, -2, -1, 1, 2, 3] 512 u'.2
  (rankOne u.1 w.1, rankOne u'.1 w'.1, w'.2)

/-- A plane that holds given cells. -/
def testPlane (cell : Nat → Nat → Int) : Plane := { Plane.zero with cells := planeCells cell }

/-! ### The phases -/

/-- P3: 2^20 forward and 2^20 transposed beats on each plane at k = 5, all 512 lines driven over −15 to 15. -/
def fitPhase (planes : List Plane) (f : Fit) : Fit :=
  planes.foldl (fun f pl =>
    let beats := fun (tr : Bool) => calBeats (calBeat ⟨pl, [], tr, 5, 21, 512, 15⟩) (2 ^ 20)
    beats true (beats false f)) { f with wins := [] }

/-- n_k and m_k of Table 09-2. -/
def verifyLines (k : Nat) : Nat := nth 0 [8, 16, 32, 64, 128, 256, 512, 512, 512, 512] k
def verifyTop (k : Nat) : Nat := nth 0 [4, 4, 4, 4, 4, 4, 4, 8, 15, 15] k

/-- The groups whose nodes miss in a beat (R130). -/
def calMisses (d : CalDrive) (f : Fit) : List Nat :=
  let v := testVector d.lines d.top f.rand
  let held := heldSums (planeSums d.pl d.tr v.1) f.draws 0
  (upFrom 0 32).filter (fun g =>
    let c := coefOf d.coefs (coefKey d.tr (512 + g))
    let code := adcCode false true f.draws (512 + g) d.k c (nodeSum held g + Config.disturb f.draws (576 + g))
    48 * 2 ^ d.k < (corr16 code d.k c).natAbs)

/-- A beat of P5: its misses count, and two in one group of one direction within the miss window are a permanent fault (R134). -/
def verifyBeat (window : Nat) (d : CalDrive) (f : Fit) : Fit :=
  let groups := calMisses d f
  let n : Int := f.passes
  let old := f.misses.filter (fun m => n < m.2.2 + (window : Int))
  let f1 := calBeat d f
  if groups.isEmpty then f1
  else { f1 with
    missed := f.missed + 1
    misses := old ++ groups.map (fun g => (d.tr, g, n))
    perm := f.perm || groups.any (fun g => old.any (fun m => m.1 == d.tr && m.2.1 == g)) }

/-- P5 at one range code: 2^17 beats per direction and plane, corrected with the new entries. -/
def verifyAt (window : Nat) (planes : List Plane) (coefs : Sparse W32) (k : Nat) (f : Fit) : Fit :=
  planes.foldl (fun f pl =>
    let beats := fun (tr : Bool) => calBeats (verifyBeat window ⟨pl, coefs, tr, k, 18, verifyLines k, verifyTop k⟩) (2 ^ 17)
    beats true (beats false f)) { f with wins := [] }

/-- Each line's largest figures so far, with those of another range code (R275). -/
def CalArr.topFigs (c : CalArr) : List (Nat × Estimate) → CalArr
  | [] => c
  | e :: es => (c.setFig e.1 (max (look 0 c.resid e.1) e.2.resid) (max (look 0 c.noise e.1) e.2.noise)).topFigs es

/-- P5: the ten range codes in turn. -/
def verifyPhase (window : Nat) (planes : List Plane) (coefs : Sparse W32) (x : Fit × CalArr) : Fit × CalArr :=
  (upFrom 0 10).foldl (fun x k =>
    let f := verifyAt window planes coefs k x.1
    (f, x.2.topFigs (f.estimates coefs k 18))) x

/-! ### One array, and all of them -/

/-- Has a line given no sample? -/
def Fit.anySilent (f : Fit) : Bool := (upFrom 0 1088).any (fun key => (look none f.wins key).isNone)

/-- Cause that power-up calibration retires an array for, 0 for none, in the order of R275 (log entry 88). -/
def powerCause (cal : CalArr) (f : Fit) (incomplete : Bool) : Nat :=
  if retireCause cal ≠ 0 then retireCause cal else if f.perm then 3 else if incomplete then 5 else 0

/-- Retire an array at power-up: the event is raised and logged, and step 7 records it in the knot map (R137). -/
def State.powerRetire (s : State) (die bent a cause : Nat) : State :=
  if cause = 0 || (s.arr die bent a).retired ≠ 0 then s
  else ((s.setArr die bent a { s.arr die bent a with retired := cause }).raise (arrPage .arr die bent a) 1).logEvent
    (arrPage .arr die bent a) 0 none none 0 1 0

/-- The phases of Table 09-1 on one array: P2 draws the patterns, P3 fits, P4 writes the entries to both coefficient banks, P5
verifies, P6 judges and publishes, and leaves both planes zero (R276). -/
def State.calibrateArr (s : State) (untrimmed : List Nat) (die bent a : Nat) : State :=
  let A := s.arr die bent a
  let pat := patterns (Config.lfsrSeed (arrKey die bent a))
  let f0 := Fit.start pat.2.2 s.free
  let f1 := fitPhase [testPlane (fitCell pat.1), testPlane (fitCell pat.2.1)] f0
  let es := f1.estimates [] 5 21
  let coefs := writeCoefs [] (es.map (fun e => (e.1, e.2.coef)))
  let x := verifyPhase (s.missWindow die bent a) [testPlane (fullCell pat.1), testPlane (fullCell pat.2.1)] coefs
    ({ f1 with passes := 0 }, CalArr.reset)
  let f2 := x.1
  let cal : CalArr := { x.2 with lfsr := f2.rand, rateN := f2.passes, rateMiss := f2.missed }
  let clamped := clampedOf es
  let bad := untrimmed.contains (arrKey die bent a) || clamped != 0 || f1.anySilent
  let s1 := (({ s with free := f2.draws } : State).setArr die bent a { A with
    live := 0
    plane0 := Plane.zero
    plane1 := Plane.zero
    activeCoef := 0
    coef0 := coefs
    coef1 := coefs
    misses := f2.misses.map (fun m => (m.1, m.2.1, m.2.2 - (f2.passes : Int)))
    cal := cal }).publish die bent a 0
  (s1.bumpN (calPage die bent) Reg.CAL_CLAMP_COUNT clamped).powerRetire die bent a (powerCause cal f2 bad)

/-- Temperature and time of the calibration of one bent (R276). -/
def State.calDone (s : State) (t : Nat) (die bent : Nat) : State :=
  let c := (nth Sensor.reset (nth [] s.sensors die) bent).temp
  (s.setCal die bent { CalBent.reset with tCal := c, tNow := c }).wr64 (calPage die bent) Reg.CAL_LAST_TIME t

/-- Calibrate every array of every present die; the knot map that a reissue starts afresh brings no retirement (R311). `t` is the
device time at the end of P6. -/
def State.calibrate (s : State) (untrimmed : List Nat) (t : Nat) : State :=
  let s0 : State := if s.flash.reissue then { s with arrs := [] } else s
  (upFrom 0 s.dies).foldl (fun s d => (upFrom 0 128).foldl (fun s b =>
    ((upFrom 0 4).foldl (fun s a => s.calibrateArr untrimmed d b a) s).calDone t d b) s) s0

end Sys2Proof.Machine
end

