-- ==== Sys2Proof/Machine/Weights.lean ====
section
/-!
DEFINITION. Weight generations (chapter 13): context key certificates, registration, shards as they arrive, seals (R259, R407), and
the background hasher.
-/

namespace Sys2Proof.Machine

abbrev wgtPage (die : Nat) : Page := diePage .wgt die

def State.setGen (s : State) (i : Nat) (g : Option Gen) : State := { s with gens := put none s.gens i g }
def State.genAt (s : State) (i : Nat) : Option Gen := look none s.gens i

/-- Exactly `n` bytes: cut, or filled up with zeros. -/
def fitB (n : Nat) (bs : Bytes) : Bytes := (bs ++ List.replicate (n - bs.length) (0 : Byte)).take n
def zeroB (n : Nat) : Bytes := List.replicate n (0 : Byte)

abbrev chunkBytes : Nat := 1048576
/-- Bytes that a shard of plaintext length `n` occupies (R398). -/
def storedBytes (n : Nat) : Nat := n + 16 * ceilDiv n chunkBytes
/-- Bytes of a plane record with `k` residual entries, padding included (R390). -/
def recordBytes (k : Nat) : Nat := ceilDiv (64 + 132096 + 4 * k) 64 * 64

/-! ### WGT_KEY_EXPORT (R389) -/

/-- The first 1,632 bytes of the certificate (Table 13-1). -/
def State.certBody (s : State) (c : Nat) (x : Ctx) : Bytes :=
  leBytes 4 0x4B434E57 ++ leBytes 2 1 ++ zeroB 2 ++ leBytes 4 (s.handleOf .ctx c) ++ leBytes 1 x.tenant ++ zeroB 3 ++
    fitB 32 s.ident.moduleId ++ leBytes 8 x.created ++ zeroB 8 ++ fitB 1568 (Config.mlkemPublic x.key)

/-- An ML-DSA-65 signature under the device identity key over the SHAKE256-512 digest of a byte string, then three zero bytes. -/
def State.signature (s : State) (bs : Bytes) : Bytes := fitB 3309 (Config.mldsaSign s.ident.seed (Config.shake256_512 bs)) ++ zeroB 3

def State.certificate (s : State) (c : Nat) (x : Ctx) : Bytes := s.certBody c x ++ s.signature (s.certBody c x)

def execWgtKeyExport (q ix : Nat) (s : State) : Host.Outcome State Fault Refusal :=
  ok (s.runFlight q ix 0x30 (fun s f =>
    let h := dHandle f.desc
    let dst := dField f.desc 0x28 8
    let n := dField f.desc 0x30 8
    s.checked f (s.checkHandle f.tenant .ctx h)
      (if n = 0 then s.passOp f 0
       else s.checked f (if n < 4944 || !s.devRange dst 4944 then Err.length else 0)
        (match s.ctx (hIdx h) with
         | none => s.failOp f Err.staleHandle 0
         | some x => (s.unitWrite dst (s.certificate (hIdx h) x) 0 (producer f.home 4 0) 0).passOp f 0))))

/-! ### Manifests and bundles (R392, R393) -/

/-- The generation block (Table 13-5). -/
structure GenBlock where
  b : Bytes
  deriving DecidableEq, Repr

def GenBlock.manifest (k : GenBlock) : Nat := fieldB k.b 0x00 8
def GenBlock.manifestBuf (k : GenBlock) : Nat := fieldB k.b 0x08 4
def GenBlock.bundleBuf (k : GenBlock) : Nat := fieldB k.b 0x0C 4
def GenBlock.bundle (k : GenBlock) : Nat := fieldB k.b 0x10 8
def GenBlock.table (k : GenBlock) : Nat := fieldB k.b 0x18 8
def GenBlock.tableBuf (k : GenBlock) : Nat := fieldB k.b 0x20 4
def GenBlock.opt (k : GenBlock) : Nat := fieldB k.b 0x28 8
def GenBlock.area (k : GenBlock) (n : Nat) : Nat × Nat := (fieldB k.b (0x40 + 16 * n) 8, fieldB k.b (0x48 + 16 * n) 8)
def GenBlock.areas (k : GenBlock) : List (Nat × Nat) := (upFrom 0 4).map k.area

/-- Ranges that the block names (R520). -/
def State.blockRanges (s : State) (k : GenBlock) : Bool :=
  s.devRange k.manifest k.manifestBuf && s.devRange k.bundle k.bundleBuf && s.devRange k.table k.tableBuf &&
    (upFrom 0 s.dies).all (fun n => s.devRange (k.area n).1 (k.area n).2)

def mShards (m : Bytes) : Nat := fieldB m 0x18 4
def mModules (m : Bytes) : Nat := fieldB m 0x1C 4
def mPlanes (m : Bytes) : Nat := fieldB m 0x20 4
/-- Module `j` of the module table. -/
def mModule (m : Bytes) (j : Nat) : Bytes := (m.drop (128 + 32 * j)).take 32
/-- Shard record `i` (Table 13-3), with the module that fetches it. -/
def mShard (m : Bytes) (i : Nat) : Nat × Shard :=
  let r := m.drop (128 + 32 * mModules m + 64 * i)
  (fieldB r 4 2, ⟨fieldB r 0 4, fieldB r 6 1, fieldB r 8 8, fieldB r 0x10 4, fieldB r 0x14 4, fieldB r 0x18 8,
    (r.drop 0x20).take 32, 0, false, 0⟩)
def mAll (m : Bytes) : List (Nat × Shard) := (upFrom 0 (mShards m)).map (mShard m)

/-- Check 2 of Table 13-6 (R392). -/
def State.manifestSigned (s : State) (m : Bytes) : Bool :=
  let body := m.take (m.length - 3312)
  let sig := (m.drop (m.length - 3312)).take 3309
  let signer := fieldB m 6 1
  if signer = 0 then Config.mldsaVerify s.ident.plaivoKey (Config.shake256_512 body) sig
  else signer == 1 && (m.drop 0x30).take 32 == fitB 32 s.ident.moduleId &&
    Config.mldsaVerify s.ident.publicKey (Config.shake256_512 body) sig

/-- Shard indices ascend. -/
def ascends : List (Nat × Shard) → Bool
  | a :: b :: l => a.2.shard < b.2.shard && ascends (b :: l)
  | [_] => true
  | [] => true
/-- Plane ranges are disjoint. -/
def planesApart : List (Nat × Shard) → Bool
  | [] => true
  | a :: l => l.all (fun b => a.2.first + a.2.planes ≤ b.2.first || b.2.first + b.2.planes ≤ a.2.first) && planesApart l

/-- Check 3. -/
def manifestSound (m : Bytes) : Bool :=
  fieldB m 0 4 == 0x4D464E57 && fieldB m 4 2 == 1 && 1 ≤ mShards m && mShards m ≤ 65536 && 1 ≤ mModules m &&
    mModules m ≤ 16384 && 1 ≤ mPlanes m && mPlanes m ≤ 2 ^ 24 && 128 + 32 * mModules m + 64 * mShards m + 3312 ≤ m.length &&
    ascends (mAll m) && (mAll m).all (fun r => r.2.first + r.2.planes ≤ mPlanes m) && planesApart (mAll m)

/-- The shards that a manifest names this module for. -/
def State.ownShards (s : State) (m : Bytes) : List Shard :=
  ((mAll m).filter (fun r => r.1 < mModules m && mModule m r.1 == fitB 32 s.ident.moduleId)).map (fun r => r.2)

/-- Entry of a bundle for a shard: its ML-KEM ciphertext and wrapped key. -/
def bundleEntry (b : Bytes) (shard : Nat) : Option (Bytes × Bytes) :=
  ((upFrom 0 (fieldB b 8 4)).map (fun i => b.drop (96 + 1624 * i))).find? (fun e => fieldB e 0 4 == shard) |>.map (fun e =>
    ((e.drop 8).take 1568, (e.drop 1576).take 48))

def kekOf (z digest : Bytes) (shard : Nat) : Bytes := Config.shake256_256 (z ++ digest ++ leBytes 4 shard)

/-- Unwrap the key of a shard (R394). -/
def unwrapKey (key digest : Bytes) (b : Bytes) (shard : Nat) : Option Bytes :=
  match bundleEntry b shard with
  | none => none
  | some e => match Config.mlkemOpen key e.1 with
    | none => none
    | some z => Config.gcmOpen (kekOf z digest shard) (zeroB 12) (leBytes 4 shard) (e.2.take 32) (e.2.drop 32)

/-- Check 4: the keys of this module's shards. -/
def bundleKeys (x : Ctx) (m b : Bytes) (buf : Nat) (sh : List Shard) : Option (List (Nat × Bytes)) :=
  let digest := Config.shake256_256 m
  if fieldB b 0 4 ≠ 0x4B424E57 || fieldB b 4 2 ≠ 1 || buf < 96 + 1624 * fieldB b 8 4 || (b.drop 16).take 32 ≠ digest ||
    (b.drop 48).take 32 ≠ Config.shake256_256 (Config.mlkemPublic x.key) then none
  else sh.mapM (fun r => (unwrapKey x.key digest b r.shard).map (fun k => (r.shard, k)))

/-- Place a die's shards in ascending order, each at the next 4 KiB boundary (R398): the shards with their bases, and the end of
each die's area. -/
def placeShards (ends : List Nat) : List Shard → List Shard × List Nat
  | [] => ([], ends)
  | r :: rs =>
    let a := ceilDiv (nth 0 ends r.home) 4096 * 4096
    let rest := placeShards (ends.set r.home (a + storedBytes r.plain)) rs
    ({ r with base := a } :: rest.1, rest.2)

/-- Check 7: the placement within the areas. -/
def placeIn (k : GenBlock) (sh : List Shard) : Option (List Shard) :=
  let p := placeShards (k.areas.map (fun a => a.1)) sh
  if (List.zip p.2 k.areas).all (fun e => e.1 ≤ e.2.1 + e.2.2) then some p.1 else none

/-- Shard keys in the key store. -/
def State.keysHeld (s : State) : Nat :=
  sumL (s.gens.map (fun e => match e.2 with
    | some g => g.keys.length
    | none => 0))

/-! ### WGT_REGISTER (R397, R398) -/

/-- What checks 3 to 8 give: a failure's code, nothing to do (check 6), or the shards with their keys. -/
inductive RegCheck where
  | bad (code : Nat)
  | none
  | good (shards : List Shard) (keys : List (Nat × Bytes))
  deriving DecidableEq, Repr

/-- Checks 2 to 8 of Table 13-6. -/
def State.regCheck (s : State) (x : Ctx) (k : GenBlock) (m b : Bytes) : RegCheck :=
  if !s.manifestSigned m then .bad Err.signature
  else if !manifestSound m then .bad Err.length
  else match bundleKeys x m b k.bundleBuf (s.ownShards m) with
    | .none => .bad Err.badHandle
    | some keys =>
      if !(s.ownShards m).all (fun r => s.dieOk r.home) then .bad Err.absentUnit
      else if (s.ownShards m).isEmpty then .none
      else match placeIn k (s.ownShards m) with
        | .none => .bad Err.length
        | some sh =>
          if k.tableBuf < 16 * mPlanes m then .bad Err.length
          else if !s.hasFreeSlot .gen || 1048576 < s.keysHeld + keys.length then .bad Err.length
          else .good sh keys

/-- Fetch a shard over a channel (R398): its read goes on VC 5. -/
def State.fetchShard (s : State) (chan : Nat) (r : Shard) : State := s.startRead chan 5 0 r.far (storedBytes r.plain) none

/-- The registration is accepted: its plane table is zero to begin with, and its shards are fetched. -/
def State.startGen (s : State) (f : Flight) (c : Nat) (k : GenBlock) (planes : Nat) (sh : List Shard) (keys : List (Nat × Bytes))
    (d : Bytes) : State :=
  let i := s.nextSlot .gen
  let g : Gen := ⟨c, false, (f.q, f.ix), hIdx (dField f.desc 0x24 4), planes, k.table, k.areas, sh, keys, none, false, d⟩
  let s1 := ((s.takeSlot .gen f.tenant).setGen i (some g)).unitWrite k.table (zeroB (16 * planes)) (s.stepTag c)
    (producer f.home 4 0) 0
  let s2 : State := sh.foldl (fun (s : State) (r : Shard) => s.fetchShard g.chan r) s1
  s2.waitFlight f.q f.ix

def State.regDone (s : State) (f : Flight) (c : Nat) (x : Ctx) (k : GenBlock) (m b : Bytes) : State :=
  match s.regCheck x k m b with
  | .bad code => s.failOp f code 0
  | .none => s.passOp f 0
  | .good sh keys => s.startGen f c k (mPlanes m) sh keys (fitB 32 (Config.shake256_256 m))

/-- The generation block has been read: its ranges, check 1, then the manifest and the bundle are read. -/
def State.regBlock (s : State) (f : Flight) (c : Nat) (x : Ctx) (k : GenBlock) : State :=
  if !s.blockRanges k || k.manifestBuf < 128 then s.failOp f Err.length 0
  else s.opBlock f (some c) k.manifest 128 (fun s h =>
    let n := fieldB h 8 8
    if n < 3440 || k.manifestBuf < n then s.failOp f Err.length 0
    else s.opBlock f (some c) k.manifest n (fun s m =>
      s.opBlock f (some c) k.bundle k.bundleBuf (fun s b => s.regDone f c x k m b)))

def execWgtRegister (q ix : Nat) (s : State) : Host.Outcome State Fault Refusal :=
  ok (s.runFlight q ix 0x31 (fun s f =>
    let h := dHandle f.desc
    let ch := dField f.desc 0x24 4
    let a := dField f.desc 0x28 8
    let n := dField f.desc 0x30 8
    let code := if s.checkHandle f.tenant .ctx h ≠ 0 then s.checkHandle f.tenant .ctx h else s.checkHandle f.tenant .chan ch
    s.checked f code
      (if n = 0 then s.passOp f 0
       else s.checked f (if n < 128 || !s.devRange a 128 then Err.length else 0)
        (match s.ctx (hIdx h) with
         | none => s.failOp f Err.staleHandle 0
         | some x => s.opBlock f (some (hIdx h)) a 128 (fun s b => s.regBlock f (hIdx h) x (GenBlock.mk b))))))

/-! ### Shards as they arrive (R391, R399, R400) -/

/-- Decrypt the chunks of a stored shard and check their tags: `n` plaintext bytes, tags after all chunks. -/
def openChunks (key : Bytes) (shard : Nat) (tags : Bytes) : Nat → Nat → Bytes → Option (List Bytes)
  | 0, _, _ => some []
  | fuel + 1, j, bs =>
    if bs.isEmpty then some []
    else
      let c := bs.take chunkBytes
      match Config.gcmOpen key (leBytes 4 shard ++ leBytes 4 j ++ zeroB 4) (leBytes 4 shard ++ leBytes 4 j ++ leBytes 4 c.length)
          c ((tags.drop (16 * j)).take 16) with
      | none => none
      | some p => (openChunks key shard tags fuel (j + 1) (bs.drop chunkBytes)).map (fun l => p :: l)

/-- The plaintext chunks of a shard when every tag holds and the digest equals the manifest's. -/
def Shard.check (r : Shard) (key stored : Bytes) : Option (List Bytes) :=
  if stored.length ≠ storedBytes r.plain then none
  else match openChunks key r.shard (stored.drop r.plain) (ceilDiv r.plain chunkBytes) 0 (stored.take r.plain) with
    | none => none
    | some cs => if Config.shake256_256 cs.flatten = r.digest then some cs else none

/-- A plane record found in a chunk: plane index, kind, residual count, chunk, offset. -/
structure PlaneRec where
  plane : Nat
  kind : Nat
  resid : Nat
  chunk : Nat
  off : Nat
  deriving DecidableEq, Repr

/-- Parse the records of a chunk from offset `o` on: zeros end the chunk; anything else that is no record fails (R390, R399). -/
def parseChunk (r : Shard) (j : Nat) : Nat → Nat → Bytes → Option (List PlaneRec)
  | 0, _, _ => some []
  | fuel + 1, o, bs =>
    let n := recordBytes (fieldB bs 6 2)
    if bs.length < 132160 || (o != 0 && bs.take 64 == zeroB 64) then (if bs.all (fun b => b == 0) then some [] else none)
    else if bs.length < n || fieldB bs 0 4 < r.first || r.first + r.planes ≤ fieldB bs 0 4 || 2 < fieldB bs 4 1 then none
    else (parseChunk r j fuel (o + n) (bs.drop n)).map (fun l =>
      ⟨fieldB bs 0 4, fieldB bs 4 1, fieldB bs 6 2, j, o⟩ :: l)

def distinct : List Nat → Bool
  | [] => true
  | a :: l => !l.contains a && distinct l

/-- All records of a shard, with no index repeated. -/
def Shard.records (r : Shard) (cs : List Bytes) : Option (List PlaneRec) :=
  match (cs.zipIdx.mapM (fun c => parseChunk r c.2 8 0 c.1)) with
  | none => none
  | some l => if distinct (l.flatten.map (fun e => e.plane)) then some l.flatten else none

/-- A plane-table entry (R400). -/
def PlaneRec.entry (e : PlaneRec) (r : Shard) : Bytes :=
  leBytes 8 (r.base + e.chunk * chunkBytes + e.off) ++
    leBytes 4 (2 ^ 31 + e.kind % 4 * 2 ^ 29 + min e.resid 4095 * 2 ^ 16 + r.shard % 2 ^ 16) ++
    leBytes 4 (e.chunk % 2 ^ 16 * 2 ^ 16 + e.off / 16 % 2 ^ 16)

def State.writeEntries (s : State) (g : Gen) (r : Shard) : List PlaneRec → State
  | [] => s
  | e :: es => (s.unitWrite (g.table + 16 * e.plane) (e.entry r) (s.stepTag g.ctx) (producer r.home 4 0) 0).writeEntries g r es

/-- Count a ready generation on the page of each of its shards' home dies, and raise its cause there. -/
def State.countReady (s : State) (sh : List Shard) : Nat → State
  | 0 => s
  | n + 1 => (if sh.any (fun r => r.home = n) then (s.bump (wgtPage n) Reg.WGT_READY_COUNT).raise (wgtPage n) 1
      else s).countReady sh n

/-- A generation becomes ready (R401): its descriptor completes, and it waits for its context's next gate, or is current at once
when no plan runs. It counts on the home dies of its shards (DEDUCED: log entry 33). -/
def State.makeReady (s : State) (i : Nat) (g : Gen) (t : Nat) : State :=
  let h := s.handleOf .gen i
  let s1 := ((s.setGen i (some { g with readyAt := some t })).finish g.flight.1 g.flight.2 0 0 h).countReady g.shards s.dies
  if s1.running g.ctx then s1.onCtx g.ctx (fun x => { x with genQueue := x.genQueue ++ [(h, t)] })
  else (s1.onCtx g.ctx (fun x => { x with curGen := h })).settleGens g.ctx

def Gen.setShard (g : Gen) (r : Shard) : Gen :=
  { g with shards := g.shards.map (fun q => if q.shard = r.shard then r else q) }

/-- A shard passes. -/
def State.shardPass (s : State) (i : Nat) (g : Gen) (r : Shard) (data : Bytes) (recs : List PlaneRec) (t : Nat) : State :=
  let g1 := g.setShard { r with passed := true }
  let s1 := ((s.unitWrite r.base data (s.stepTag g.ctx) (producer r.home 4 0) 0).writeEntries g r recs).setGen i (some g1)
  let s2 := s1.bump (wgtPage r.home) Reg.WGT_FETCH_COUNT
  if g1.shards.all (fun q => q.passed) then s2.makeReady i g1 t else s2

/-- A shard fails: it is fetched once more, and a second failure ends the registration. -/
def State.shardFail (s : State) (i : Nat) (g : Gen) (r : Shard) : State :=
  let s1 := (s.bump (wgtPage r.home) Reg.WGT_ARRIVAL_FAIL_COUNT).raise (wgtPage r.home) 2
  if r.fails = 0 then (s1.setGen i (some (g.setShard { r with fails := 1 }))).fetchShard g.chan r
  else (s1.latchErr (wgtPage r.home) Err.digest (some g.ctx) 0 r.base).dropGen i g Err.digest

def State.shardIn (s : State) (i : Nat) (g : Gen) (r : Shard) (data : Bytes) (t : Nat) : State :=
  match r.check (g.key r.shard) data with
  | none => s.shardFail i g r
  | some cs => match r.records cs with
    | none => s.shardFail i g r
    | some recs => s.shardPass i g r data recs t

def execShardArrival (gen shard : Nat) (data : Bytes) (t : Nat) (s : State) : Host.Outcome State Fault Refusal :=
  ok (s.whenUp (fun s => match s.genAt gen with
    | none => s
    | some g =>
      if g.isSeal || g.readyAt.isSome then s
      else match g.shards.find? (fun r => r.shard == shard && !r.passed) with
        | none => s
        | some r => (s.at t).shardIn gen g r data (s.at t).time))

/-! ### Seals (R259 to R261, R407) -/

/-- The shard map of a plan (R407): (first plane, planes, home die). -/
def shardMapOf (b : Bytes) : List (Nat × Nat × Nat) :=
  (upFrom 0 (fieldB b 0 4)).map (fun i => let e := b.drop (16 + 16 * i); (fieldB e 0 4, fieldB e 4 4, fieldB e 8 1))

/-- The primary plan of a context, when it is loaded. -/
def State.primaryOf (s : State) (x : Ctx) : Option PlanObj := x.primary.bind (fun i => s.plan i)

abbrev slotBytes : Nat := 140352

/-- Residual counts of a shard's working-set records. -/
def State.workResid (s : State) (work first n : Nat) : List Nat :=
  (upFrom first n).map (fun p => min (leNat (s.mem.view (work + p * slotBytes + 6) 2)) 2048)

/-- Plaintext length of a run of records (R390): records do not span chunks. -/
def packEnd : Nat → List Nat → Nat
  | o, [] => o
  | o, k :: ks =>
    let n := recordBytes k
    let o1 := if chunkBytes < o % chunkBytes + n then ceilDiv o chunkBytes * chunkBytes else o
    packEnd (o1 + n) ks

/-- The shards that a seal makes, placed in the areas. -/
def State.sealShards (s : State) (k : GenBlock) (work : Nat) (map : List (Nat × Nat × Nat)) : Option (List Shard) :=
  placeIn k (map.zipIdx.map (fun e =>
    ⟨e.2, e.1.2.2, packEnd 0 (s.workResid work e.1.1 e.1.2.1), e.1.1, e.1.2.1, 0, [], 0, false, 0⟩))

/-- Code of a seal's checks after its handles: buffers for what it writes, home dies, and a free slot and keys (R261, R519). -/
def State.sealCode (s : State) (k : GenBlock) (work planes : Nat) (map : List (Nat × Nat × Nat)) : Nat :=
  if !map.all (fun e => s.dieOk e.2.2) then Err.absentUnit
  else if k.manifestBuf < 128 + 32 + 64 * map.length + 3312 || k.bundleBuf < 96 + 1624 * map.length || k.tableBuf < 16 * planes ||
    !s.devRange work (planes * slotBytes) then Err.length
  else if (s.sealShards k work map).isNone then Err.length
  else if !s.hasFreeSlot .gen || 1048576 < s.keysHeld + map.length then Err.length
  else 0

/-- The seal starts: it holds a generation slot and the learning context's one seal. -/
def State.startSeal (s : State) (f : Flight) (c recv : Nat) (k : GenBlock) (work planes : Nat) (map : List (Nat × Nat × Nat)) :
    State :=
  let i := s.nextSlot .gen
  let g : Gen := ⟨recv, true, (f.q, f.ix), 0, planes, k.table, k.areas, [], [], none, false, []⟩
  (((s.takeSlot .gen f.tenant).setGen i (some g)).onCtx c (fun x => { x with
    sealOp := some ⟨recv, (f.q, f.ix), k.b, work, map, i⟩ })).waitFlight f.q f.ix

/-- The generation block and the optimiser block have been read. -/
def State.sealBlock (s : State) (f : Flight) (c recv : Nat) (p : PlanObj) (k : GenBlock) (opt : Bytes) : State :=
  let map := shardMapOf p.img.shardMap
  let planes := fieldB p.img.shardMap 4 4
  let code := s.sealCode k (fieldB opt 0x20 8) planes map
  if code = 0 then s.startSeal f c recv k (fieldB opt 0x20 8) planes map else s.failOp f code 0

def execWgtSeal (q ix : Nat) (s : State) : Host.Outcome State Fault Refusal :=
  ok (s.runFlight q ix 0x32 (fun s f =>
    let h := dHandle f.desc
    let r := dField f.desc 0x24 4
    let a := dField f.desc 0x28 8
    let n := dField f.desc 0x30 8
    let code := if s.checkHandle f.tenant .ctx h ≠ 0 then s.checkHandle f.tenant .ctx h else s.checkHandle f.tenant .ctx r
    s.checked f code
      (if n = 0 then s.passOp f 0
       else s.checked f (if n < 128 || !s.devRange a 128 then Err.length else 0)
        (match s.ctx (hIdx h) with
         | none => s.failOp f Err.staleHandle 0
         | some x =>
           if x.sealOp.isSome then s
           else match s.primaryOf x with
            | none => s.failOp f Err.notReady 0
            | some p => s.opBlock f (some (hIdx h)) a 128 (fun s b =>
              if !s.blockRanges (GenBlock.mk b) || !s.devRange (GenBlock.mk b).opt 104 then s.failOp f Err.length 0
              else s.opBlock f (some (hIdx h)) (GenBlock.mk b).opt 104 (fun s o =>
                s.sealBlock f (hIdx h) (hIdx r) p (GenBlock.mk b) o))))))

/-- Read the working-set records of a run of planes: the records, the flags met, and the state after. -/
def State.readWork (s : State) (work : Nat) : List Nat → List Bytes × Nat × State
  | [] => ([], 0, s)
  | p :: ps =>
    let n := recordBytes (min (leNat (s.mem.view (work + p * slotBytes + 6) 2)) 2048)
    let r := s.unitRead (work + p * slotBytes) n
    let rest := r.2.readWork work ps
    (r.1.data :: rest.1, r.1.flags ||| rest.2.1, rest.2.2)

/-- The plaintext of a run of records, and where each stands. -/
def packRecs : Nat → List Bytes → Bytes × List Nat
  | _, [] => ([], [])
  | o, b :: bs =>
    let o1 := if chunkBytes < o % chunkBytes + b.length then ceilDiv o chunkBytes * chunkBytes else o
    let rest := packRecs (o1 + b.length) bs
    (zeroB (o1 - o) ++ b ++ rest.1, o1 :: rest.2)

/-- Encrypt a plaintext in chunks (R391): ciphertexts and tags. -/
def sealChunks (key : Bytes) (shard : Nat) : Nat → Nat → Bytes → Bytes × Bytes
  | 0, _, _ => ([], [])
  | fuel + 1, j, bs =>
    let c := bs.take chunkBytes
    let e := Config.gcmSeal key (leBytes 4 shard ++ leBytes 4 j ++ zeroB 4) (leBytes 4 shard ++ leBytes 4 j ++ leBytes 4 c.length) c
    let rest := sealChunks key shard fuel (j + 1) (bs.drop chunkBytes)
    (fitB c.length e.1 ++ rest.1, fitB 16 e.2 ++ rest.2)

/-- One shard of a seal is read, hashed, encrypted and written with its plane-table entries. It answers the shard with its digest,
its key and bundle entry without the manifest's digest, the flags met, and the state after. -/
def State.sealShard (s : State) (work gen recvTable : Nat) (r : Shard) : Shard × Bytes × Nat × State :=
  let rd := s.readWork work (upFrom r.first r.planes)
  let p := packRecs 0 rd.1
  let key := fitB 32 (Config.freshBytes rd.2.2.free 32)
  let e := sealChunks key r.shard (ceilDiv p.1.length chunkBytes) 0 p.1
  let sh := { r with plain := p.1.length, digest := Config.shake256_256 p.1, passed := true }
  let s1 := rd.2.2.spend.unitWrite r.base (e.1 ++ e.2) gen (producer r.home 4 0) 0
  let recs := (List.zip rd.1 p.2).map (fun x => (⟨fieldB x.1 0 4, fieldB x.1 4 1, fieldB x.1 6 2, x.2 / chunkBytes, x.2 % chunkBytes⟩
    : PlaneRec))
  let s2 : State := recs.foldl (fun (s : State) (x : PlaneRec) => s.unitWrite (recvTable + 16 * x.plane) (x.entry sh) gen
    (producer r.home 4 0) 0) s1
  (sh, key, rd.2.1, s2)

def State.sealAll (s : State) (work gen table : Nat) : List Shard → List (Shard × Bytes) × Nat × State
  | [] => ([], 0, s)
  | r :: rs =>
    let a := s.sealShard work gen table r
    let rest := a.2.2.2.sealAll work gen table rs
    ((a.1, a.2.1) :: rest.1, a.2.2.1 ||| rest.2.1, rest.2.2)

/-- Blocks of a range that carry bound exceeded. -/
def State.boundBlks (s : State) (a n : Nat) : Nat :=
  ((blksOf a n).filter (fun b => bitAt (Flag.carried (scribeFlags (s.mem.scribeOf b))) 1)).length

/-- The manifest that a seal writes (R259 step 4, R392). -/
def State.sealManifest (s : State) (planes flagged t : Nat) (sh : List Shard) : Bytes :=
  let id := fitB 32 s.ident.moduleId
  let n := 128 + 32 + 64 * sh.length + 3312
  let body := leBytes 4 0x4D464E57 ++ leBytes 2 1 ++ leBytes 1 1 ++ zeroB 1 ++ leBytes 8 n ++ zeroB 8 ++ leBytes 4 sh.length ++
    leBytes 4 1 ++ leBytes 4 planes ++ leBytes 4 flagged ++ leBytes 8 t ++ id ++ zeroB 48 ++ id ++
    sh.flatMap (fun r => leBytes 4 r.shard ++ zeroB 2 ++ leBytes 1 r.home ++ zeroB 1 ++ leBytes 8 r.plain ++ leBytes 4 r.first ++
      leBytes 4 r.planes ++ zeroB 8 ++ fitB 32 r.digest)
  body ++ s.signature body

/-- The key bundle that a seal writes (R393, R394). -/
def sealBundle (m pub : Bytes) (n : Nat) (keys : List (Nat × Bytes)) : Bytes :=
  let digest := fitB 32 (Config.shake256_256 m)
  leBytes 4 0x4B424E57 ++ leBytes 2 1 ++ zeroB 2 ++ leBytes 4 keys.length ++ zeroB 4 ++ digest ++
    fitB 32 (Config.shake256_256 pub) ++ zeroB 16 ++
    keys.zipIdx.flatMap (fun k =>
      let e := Config.mlkemSeal pub (n + k.2)
      let w := Config.gcmSeal (kekOf e.2 digest k.1.1) (zeroB 12) (leBytes 4 k.1.1) k.1.2
      leBytes 4 k.1.1 ++ zeroB 4 ++ fitB 1568 e.1 ++ fitB 32 w.1 ++ fitB 16 w.2)

def State.countSeals (s : State) (sh : List Shard) : Nat → State
  | 0 => s
  | n + 1 => (if sh.any (fun r => r.home = n) then s.bump (wgtPage n) Reg.WGT_SEAL_COUNT else s).countSeals sh n

/-- The seal ends: with a generation, or, when a working-set block was poisoned, without one. -/
def State.endSeal (s : State) (c : Nat) (o : Sealing) (g : Gen) (t : Nat) : State :=
  let k := GenBlock.mk o.block
  let tag := s.stepTag o.recv
  let sh := (s.sealShards k o.work o.map).getD []
  let s0 := s.unitWrite k.table (zeroB (16 * g.planeCount)) tag (producer 0 4 0) 0
  let flagged := s0.boundBlks o.work (g.planeCount * slotBytes)
  let r := s0.sealAll o.work tag k.table sh
  let s1 := r.2.2.onCtx c (fun x => { x with sealOp := none })
  if Flag.isPoison r.2.1 then
    (s1.consumePoison (wgtPage 0) c o.work).dropGen o.gen g Err.poison
  else
    let m := s1.sealManifest g.planeCount flagged t (r.1.map (fun e => e.1))
    let pub := match s1.ctx o.recv with
      | some x => fitB 1568 (Config.mlkemPublic x.key)
      | none => []
    let keys := r.1.map (fun e => (e.1.shard, e.2))
    let b := sealBundle m pub s1.free keys
    let s2 := ((s1.spend.unitWrite k.manifest m tag (producer 0 4 0) 0).unitWrite k.bundle b tag (producer 0 4 0) 0).countSeals
      (r.1.map (fun e => e.1)) s.dies
    s2.makeReady o.gen { g with
      shards := r.1.map (fun e => e.1), keys := keys, digest := fitB 32 (Config.shake256_256 m) } t

def execSealComplete (ctx t : Nat) (s : State) : Host.Outcome State Fault Refusal :=
  ok (s.whenUp (fun s => match s.ctx ctx with
    | none => s
    | some x => match x.sealOp with
      | none => s
      | some o => match s.genAt o.gen with
        | none => s
        | some g => (s.at t).endSeal ctx o g (s.at t).time))

/-! ### The background hasher (R403, R404) -/

def State.hasher (s : State) (die : Nat) : Hasher := nth Hasher.reset s.hashers die
def State.setHasher (s : State) (die : Nat) (h : Hasher) : State := { s with hashers := s.hashers.set die h }

/-- Shards of a generation on a die that the hasher reads: of a ready generation that is not quarantined. -/
def State.hashable (s : State) (die i : Nat) (g : Gen) : List (Nat × Nat) :=
  if g.readyAt.isSome && !g.quarantined then
    (g.shards.filter (fun r => r.home == die)).map (fun r => (s.handleOf .gen i, r.shard))
  else []

/-- A whole pass of a die's hasher, in ascending generation index and then shard index. -/
def State.hashPass (s : State) (die : Nat) : List (Nat × Nat) :=
  s.gens.flatMap (fun e => match e.2 with
    | some g => s.hashable die e.1 g
    | none => [])

/-- The generation and shard that a hasher entry names, while both still are there to be hashed. -/
def State.hashTarget (s : State) (die : Nat) (e : Nat × Nat) : Option (Gen × Shard) :=
  match s.gen e.1 with
  | none => none
  | some g =>
    if (s.hashable die (hIdx e.1) g).contains e then (g.shards.find? (fun r => r.shard == e.2)).map (fun r => (g, r)) else none

/-- WGT_VERIFY moves a generation to the head of the pass on every die. -/
def State.hashFirst (s : State) (i : Nat) (g : Gen) : Nat → State
  | 0 => s
  | n + 1 =>
    let h := s.hasher n
    let mine := s.hashable n i g
    (s.setHasher n { h with todo := mine ++ h.todo.filter (fun e => !mine.contains e) }).hashFirst i g n

def execWgtVerify (q ix : Nat) (s : State) : Host.Outcome State Fault Refusal :=
  ok (s.runFlight q ix 0x33 (fun s f =>
    let h := dHandle f.desc
    s.checked f (s.checkHandle f.tenant .gen h)
      (match s.gen h with
       | none => s.failOp f Err.genRetired 0
       | some g =>
         if g.quarantined then s.failOp f Err.genRetired 0
         else if g.readyAt.isNone then s.failOp f Err.notReady 0
         else (s.hashFirst (hIdx h) g s.dies).passOp f 0)))

/-- Does a die's hasher run: its rate is not 0 and its die is awake enough (R479)? -/
def State.hashing (s : State) (die : Nat) : Bool :=
  s.dieOk die && s.fld (wgtPage die) Reg.WGT_HASH_CFG 15 0 != 0 && (s.wakeOf die).state ≤ 2

/-- Hash a stored shard: does it agree with the manifest? An uncorrectable codeword counts as a mismatch. -/
def State.hashShard (s : State) (die : Nat) (g : Gen) (r : Shard) (upset : Bool) : Bool × State :=
  let n := storedBytes r.plain
  let rd := s.unitRead r.base n
  let good := !upset && !Flag.isPoison rd.1.flags && (r.check (g.key r.shard) rd.1.data).isSome
  (good, rd.2.add64 (wgtPage die) Reg.WGT_HASH_BYTES n)

/-- The pass from the first shard that is still there to be hashed; a pass that has run out begins again. -/
def State.hashTodo (s : State) (die : Nat) : List (Nat × Nat) :=
  let l := (s.hasher die).todo.filter (fun e => (s.hashTarget die e).isSome)
  if l.isEmpty then s.hashPass die else l

/-- The hasher finishes reading a shard. -/
def State.hashCheck (s : State) (die : Nat) (upset : Bool) : State :=
  match s.hashTodo die with
  | [] => s
  | e :: es => match s.hashTarget die e with
    | none => s
    | some x =>
      let r := s.hashShard die x.1 x.2 upset
      let s1 := r.2.setHasher die ⟨es, if r.1 then none else some e⟩
      if es.isEmpty then s1.bump (wgtPage die) Reg.WGT_PASS_COUNT else s1

def execHasherShardCheck (die : Nat) (upset : Bool) (t : Nat) (s : State) : Host.Outcome State Fault Refusal :=
  ok (s.whenUp (fun s =>
    if s.hashing die && (s.hasher die).rehash.isNone then (s.at t).hashCheck die upset else s))

/-- The mismatch of a shard is recorded in WGT_LAST_MISMATCH. -/
def State.noteMismatch (s : State) (die : Nat) (e : Nat × Nat) (transient : Bool) : State :=
  s.wr (wgtPage die) Reg.WGT_LAST_MISMATCH (packW [(31, 1), (30, b2n transient), (16, hIdx e.1 % 4096), (0, e.2 % 2 ^ 16)])

/-- The generation is quarantined, and the context that holds it faulted. -/
def State.quarantine (s : State) (die : Nat) (e : Nat × Nat) (g : Gen) (r : Shard) : State :=
  let s1 := s.setGen (hIdx e.1) (some { g with quarantined := true })
  ((((s1.faultCtx g.ctx Err.digest).bump (wgtPage die) Reg.WGT_QUARANTINE_COUNT).raise (wgtPage die) 4).noteMismatch die e
    false).latchErrAs (some 3) (wgtPage die) Err.digest (some g.ctx) 0 r.base

/-- The re-hash of a shard ends. One whose generation has been freed meanwhile counts nothing (Table 13-8). -/
def State.rehashEnd (s : State) (die : Nat) (upset : Bool) (e : Nat × Nat) : State :=
  let s0 := s.setHasher die { s.hasher die with rehash := none }
  match s0.hashTarget die e with
  | none => s0
  | some x =>
    let r := s0.hashShard die x.1 x.2 upset
    if r.1 then ((r.2.bump (wgtPage die) Reg.WGT_TRANSIENT_COUNT).raise (wgtPage die) 3).noteMismatch die e true
    else r.2.quarantine die e x.1 x.2

def execHasherRehash (die : Nat) (upset : Bool) (t : Nat) (s : State) : Host.Outcome State Fault Refusal :=
  ok (s.whenUp (fun s => match (s.hasher die).rehash with
    | none => s
    | some e => if s.hashing die then (s.at t).rehashEnd die upset e else s))

end Sys2Proof.Machine
end

