-- ==== Sys2Proof/Machine/Boot.lean ====
section
/-!
DEFINITION. From power to ready (chapter 17): images and their verification, the bring-up steps, updates and attestation.
-/

namespace Sys2Proof.Machine

abbrev devPage : Page := diePage .dev 0
abbrev secPage : Page := diePage .sec 0

/-! ### Images (R491, R492) -/

/-- Copies of a type in the order they are tried: the higher version first, copy A when they are equal. -/
def State.tryOrder (s : State) (type : Nat) : List Nat :=
  if imgVersion (s.image type 0) < imgVersion (s.image type 1) then [1, 0] else [0, 1]

/-- May a copy be accepted? -/
def State.acceptable (s : State) (type copy : Nat) : Bool :=
  flashOk type (s.image type copy) && s.highest type ≤ imgVersion (s.image type copy)

/-- The copy that is accepted, with its place in the order. -/
def State.accepted (s : State) (type : Nat) : Option (Nat × Nat) :=
  ((s.tryOrder type).zipIdx.find? (fun c => s.acceptable type c.1))

/-- Set or clear a bit of a mask. -/
def setBit (m i : Nat) (b : Bool) : Nat := if bitAt m i == b then m else if b then m + 2 ^ i else m - 2 ^ i

/-- A copy boots: its version is the new highest, and MC_STATUS and the SEC page show it. -/
def State.bootImage (s : State) (type copy place : Nat) : State :=
  let b := s.image type copy
  let i := type - 1
  { s with
    flash := { s.flash with highest := s.flash.highest.set i (imgVersion b) }
    ident := { s.ident with versions := s.ident.versions.set i (imgVersion b)
                            digests := s.ident.digests.set i (fitB 32 (Config.shake256_256 (imgWhole b))) }
    boot := { s.boot with fallback := setBit s.boot.fallback i (place == 1), copyB := setBit s.boot.copyB i (copy == 1) } }

/-! ### Power cycles (R489, R498) -/

/-- What a power cycle leaves: the log flash, the retirement causes behind the knot map (R135), the state of the links, and the
commands and outputs that are not the package's own. -/
def State.powerCycle (s : State) : State :=
  { State.reset with
    pending := s.pending, variant := s.variant, free := s.free, out := s.out, sent := s.sent, flash := s.flash, log := s.log
    arrs := retiredOnly s.arrs, fab := s.fab.links
    boot := { Boot.reset with phase := 2, step := 1 } }

/-- The input first reaches 46 V: step 1 begins, and device time starts. -/
def execPowerOn (voltage : Nat) (s : State) : Host.Outcome State Fault Refusal :=
  ok (if s.boot.phase = 0 && 4600 ≤ voltage then s.powerCycle.onPwr (fun p => { p with voltage := voltage }) else s)

/-! ### The steps of Table 17-1 -/

def State.onBoot (s : State) (f : Boot → Boot) : State := { s with boot := f s.boot }

/-- Bring-up stops (R493). -/
def State.bootFail (s : State) (code : Nat) : State :=
  ((s.onBoot (fun b => { b with failed := true, failCode := code })).raise devPage 2).logEvent devPage code none none 0 2 0

/-- Step 2: the identity key, then the firmware; without one, ROM recovery. -/
def State.step2 (s : State) (env : BootEnv) : State :=
  let s1 : State := { s with ident := { s.ident with seed := env.seed, publicKey := fitB 1952 (Config.mldsaPublic env.seed) } }
  match s1.accepted 1 with
  | some c => (s1.bootImage 1 c.1 c.2).onBoot (fun b => { b with mcState := 1 })
  | none => (s1.onBoot (fun b => { b with mcState := 2 })).bootFail Err.signature

def variantOf (code : Nat) : Variant := if code = 2 then .vxj4s else if code = 3 then .vxj2s else .vxj4t

/-- Step 3: the configuration, and every field that it loads (R494); its module_id must be the identity's (R495). -/
def State.step3 (s : State) : State :=
  match s.accepted 2 with
  | none => s.bootFail Err.signature
  | some c =>
    let g := Config.cfgContent (imgWhole (s.image 2 c.1))
    if g.moduleId ≠ Config.shake256_256 s.ident.publicKey then s.bootFail Err.signature
    else
      let v := variantOf g.variant
      let s1 := s.bootImage 2 c.1 c.2
      { s1 with
        variant := v
        ident := { s1.ident with moduleId := g.moduleId, plaivoKey := g.plaivoKey, portBase := g.portBase }
        pwr := { s1.pwr with limitSust := v.sustained, limitPeak := v.peak } }

/-- Spares that the recorded map-outs use, and the blocks they lead from, of each stack. -/
def mapoutsOf (l : List Nat) (st : Nat) : List Nat := l.filter (fun b => stackOf (b * 4096) == st)

/-- Memory after the fill: every byte zero, every scribe that of a zero block, map-outs applied (R418). -/
def filledMem (mapouts : List Nat) : Mem :=
  (upFrom 0 8).foldl (fun m st =>
    let l := mapoutsOf mapouts st
    { m with mapped := put [] m.mapped st l, spares := put 0 m.spares st l.length }) Mem.reset

/-- The map-outs to apply: those recorded in the state records, and those that the accepted configuration image brings (R418, R494). -/
def State.mapoutsNow (s : State) : List Nat :=
  let g := Config.cfgContent (imgWhole (s.image 2 (bits s.boot.copyB 1 1)))
  (g.mapouts.filter (fun b => s.populated (b * 4096) 4096)).foldl (fun l b => insertAsc b l) s.flash.mapouts

/-- Step 5: HBM training, map-outs, fill. A stack that fails ends bring-up before the host die's release. -/
def State.step5 (s : State) (env : BootEnv) : State :=
  let up := (upFrom 0 (2 * s.dies)).filter (fun st => !env.badStacks.contains st)
  let dies := (upFrom 0 s.dies).filter (fun d => up.contains (2 * d) && up.contains (2 * d + 1))
  let s1 := ({ s with mem := filledMem s.mapoutsNow } : State).onBoot (fun b => { b with
    fillDone := dies, devReady := maskOf (up.map (fun st => st + 4)) })
  let s2 := dies.foldl (fun s d => s.raise (memPage d) 5) s1
  if up.length = 2 * s.dies then s2 else s2.bootFail Err.notReady

/-! #### The knot map at power-up (R310, R311) -/

/-- Bits set in a mask of `n` bits. -/
def bitsOf (m n : Nat) : List Nat := (upFrom 0 n).filter (fun i => bitAt m i)

/-- A die record as it is read (Table 10-6). -/
def knotDieOf (b : Bytes) (o : Nat) : KnotDie :=
  ⟨bitsOf (fieldB b o 16) 128, bitsOf (fieldB b (o + 0x10) 16) 128, bitsOf (fieldB b (o + 0x20) 32) 256,
    bitsOf (fieldB b (o + 0x40) 64) 512, bitsOf (fieldB b (o + 0x80) 2) 16, bitsOf (fieldB b (o + 0x82) 2) 16,
    fieldB b (o + 0x84) 1⟩

def knotMapOf (b : Bytes) : KnotMap :=
  ⟨fieldB b 4 4, fieldB b 8 8, fieldB b 0x10 4, (upFrom 0 4).map (fun n => knotDieOf b (0x20 + 0xA0 * n))⟩

/-- Does a copy's CRC hold? -/
def knotCopyOk (c : Option Bytes) : Bool :=
  match c with
  | some b => b.length == 0x2A4 && fieldB b 0x2A0 4 == crc32c (b.take 0x2A0)
  | none => false

/-- The copy with the higher version whose CRC holds. -/
def Flash.knots (f : Flash) : Option KnotMap :=
  let l := ([f.knotA, f.knotB].filter knotCopyOk).filterMap (fun c => c.map knotMapOf)
  l.foldl (fun acc m => match acc with
    | none => some m
    | some k => if k.version < m.version then some m else some k) none

/-- Die records without a knot: every present bridge carries its 8 channels. -/
def State.freshKnots (s : State) : List KnotDie :=
  (upFrom 0 4).map (fun d => ⟨[], [], [], [], [], [], if s.hasBridge d then 4 * popCount (nth 63 s.fab.modules d) / 3 else 0⟩)

/-- The map that bring-up starts from: a marked one starts afresh, with its version. -/
def State.readKnots (s : State) : KnotMap :=
  match s.flash.knots with
  | some m => if s.flash.reissue then { m with dies := s.freshKnots } else m
  | none => ⟨0, 0, 0, s.freshKnots⟩

/-- Ports light up with their laser input: a lit port trains, one with a lane that its mode cannot lose stays RETIRED (R443 to
R452). -/
def State.lightPort (s : State) (lit p : Nat) : State :=
  let m := look 0 s.flash.lanes p
  let st := if m != 0 && laneOutcome false 1 m == 6 then 6 else if bitAt lit p then 1 else 5
  s.setPort p { Port.reset with state := st, retired := m }

def State.lightPorts (s : State) (lit : Nat) (laser : List Int) : State :=
  let s1 := (upFrom 0 (4 * s.dies)).foldl (fun s e => s.setOptic e ⟨bitAt lit (2 * e) || bitAt lit (2 * e + 1), nth 0 laser e⟩) s
  (upFrom 0 (8 * s.dies)).foldl (fun s p => s.lightPort lit p) s1

/-- Where the host die image stands in the carve-out; an image of any length fits there. -/
def hostImageAddr : Nat := t1Base + Config.hostImageBlock % ((carveBytes - regionBytes 3) / 4096) * 4096

/-- The host die image is read into the carve-out copy by copy, up to the copy that is accepted (Table 17-1). -/
def State.readHostImage (s : State) : State :=
  let tried := match s.accepted 3 with
    | some c => (s.tryOrder 3).take (c.2 + 1)
    | none => s.tryOrder 3
  tried.foldl (fun s c => s.spend.unitWrite hostImageAddr ((imgWhole (s.image 3 c)).take (regionBytes 3)) 0 (s.draw % 2 ^ 16) 0) s

/-- Step 6: knot map, calibration, lasers, and the host die image. -/
def State.step6 (s : State) (env : BootEnv) : State :=
  let s1 : State := { s with fab := { s.fab with knots := s.readKnots } }
  let s2 := ((s1.calibrate env.untrimmed (min env.calTime s1.time)).lightPorts env.lit env.laser).onBoot (fun b => { b with
    calDone := true, devReady := b.devReady + (2 ^ s.dies - 1) })
  let s3 := s2.readHostImage
  match s3.accepted 3 with
  | some c => (s3.bootImage 3 c.1 c.2).onBoot (fun b => { b with hostOk := true })
  | none => s3.onBoot (fun b => { b with failCode := Err.signature })

/-- Die records with every retired array in them (R137). -/
def State.withRetired (s : State) (dies : List KnotDie) : List KnotDie :=
  s.arrs.foldl (fun (l : List KnotDie) (a : Nat × Arr) =>
    if a.2.retired = 0 then l
    else l.set (a.1 / 512) ((nth ⟨[], [], [], [], [], [], 0⟩ l (a.1 / 512)).retireArr (a.1 / 4 % 128) (a.1 % 4))) dies

/-- Die records with the links and the routers that link training found dead (R311). -/
def withDead (env : BootEnv) (dies : List KnotDie) : List KnotDie :=
  let blank : KnotDie := ⟨[], [], [], [], [], [], 0⟩
  let l := env.deadLinks.foldl (fun (l : List KnotDie) e =>
    l.set e.1 { nth blank l e.1 with links := insertAsc e.2 (nth blank l e.1).links }) dies
  env.deadRouters.foldl (fun (l : List KnotDie) e =>
    l.set e.1 { nth blank l e.1 with routers := insertAsc e.2 (nth blank l e.1).routers }) l

/-- Step 7: what calibration and link training retired enters a new knot map version, as does a reissue; the host die is released
when its image was accepted. -/
def State.step7 (s : State) (env : BootEnv) : State :=
  let dies := withDead env (s.withRetired s.fab.knots.dies)
  let s1 := if s.flash.reissue || s.flash.knots.isNone || dies != s.fab.knots.dies then s.newKnots 0 0 dies else s
  let s2 := s1.setReissue false
  if s2.boot.hostOk then s2.onBoot (fun b => { b with hostReleased := true, devReady := b.devReady + 4096 })
  else s2.logEvent devPage Err.signature none none 0 0 0

/-- Step 8: the package is ready. -/
def State.step8 (s : State) : State := (s.onBoot (fun b => { b with phase := 3 })).raise devPage 1

/-- The work of a step. -/
def State.stepWork (s : State) (env : BootEnv) : State :=
  if s.boot.step = 2 then s.step2 env
  else if s.boot.step = 3 then s.step3
  else if s.boot.step = 5 then s.step5 env
  else if s.boot.step = 6 then s.step6 env
  else if s.boot.step = 7 then s.step7 env
  else if s.boot.step = 8 then s.step8
  else s

/-- A bring-up step ends: its end time is noted, and the next one starts unless bring-up has stopped. -/
def State.endStep (s : State) (env : BootEnv) : State :=
  let k := s.boot.step
  let s1 := (s.at env.lateTime).stepWork env
  if s1.boot.failed then s1
  else s1.onBoot (fun b => { b with step := if k = 8 then 0 else k + 1, stepEnd := b.stepEnd.set (k - 1) (s1.time / 1000) })

def execBootStepEnd (env : BootEnv) (s : State) : Host.Outcome State Fault Refusal :=
  ok (if s.boot.phase = 2 && !s.boot.failed && s.shut.isNone && env.ok then s.endStep env else s)

/-- ROM recovery takes one firmware image over the monitor line and writes it to the copy that failed: copy A when both did
(Table 17-4). -/
def execRomRecoveryImage (image : Bytes) (s : State) : Host.Outcome State Fault Refusal :=
  ok (if s.boot.mcState = 2 && s.boot.phase = 2 && flashOk 1 image then
    s.setImage 1 (if s.acceptable 1 0 then 1 else 0) (imgWhole image)
  else s)

/-! ### Updates (R496) -/

def State.onIdent (s : State) (f : Ident → Ident) : State := { s with ident := f s.ident }

/-- SEC_UPDATE.result or SEC_ATTEST.result. -/
def State.secResult (s : State) (off code : Nat) : State := s.setFld secPage off 23 16 code

/-- A write of SEC_UPDATE.go: ignored while an update is busy. -/
def State.startUpdate (s : State) (type : Nat) : State :=
  if s.ident.updating.isSome || !s.fwRuns then s
  else s.onIdent (fun i => { i with updating := some (type % 4, s.rd64 secPage Reg.SEC_UPDATE_ADDR) })

def execSecUpdate (type : Nat) (s : State) : Host.Outcome State Fault Refusal :=
  ok (s.hostPage secPage (fun s => s.startUpdate type))

/-- An update ends: the image is written to the copy of its type that did not boot, or the check that failed is reported. -/
def State.endUpdate (s : State) (type a : Nat) : State :=
  let b := s.imageAt a
  let good := s.updateOk type b
  let s1 := if good then s.setImage type (s.spareCopy type) (imgWhole b) else s
  ((s1.onIdent (fun i => { i with updating := none })).secResult Reg.SEC_UPDATE (if good then 0 else Err.signature)).raise secPage 1

def execUpdateEnd (t : Nat) (s : State) : Host.Outcome State Fault Refusal :=
  ok (match s.ident.updating with
    | some u => if s.fwRuns && s.shut.isNone then (s.at t).endUpdate u.1 u.2 else s
    | none => s)

/-! ### Attestation (R497) -/

def State.startAttest (s : State) : State :=
  if s.ident.attesting.isSome || !s.fwRuns then s
  else s.onIdent (fun i => { i with attesting := some (s.rd64 secPage Reg.SEC_ATTEST_BLOCK, s.time) })

def execSecAttest (s : State) : Host.Outcome State Fault Refusal := ok (s.hostPage secPage (fun s => s.startAttest))

/-- An entry of a report. -/
def attestEntry (kind handle : Nat) (digest : Bytes) : Bytes := leBytes 1 kind ++ zeroB 3 ++ leBytes 4 handle ++ fitB 32 digest

/-- The plans and the ready generations of a context. -/
def State.attestEntries (s : State) (c : Nat) : List Bytes :=
  (s.plans.filterMap (fun (e : Nat × Option PlanObj) => match e.2 with
    | some p => if p.ctx = c then some (attestEntry 1 (s.handleOf .plan e.1) p.img.digest) else none
    | none => none)) ++
  (s.gens.filterMap (fun (e : Nat × Option Gen) => match e.2 with
    | some g => if g.ctx = c && g.readyAt.isSome then some (attestEntry 2 (s.handleOf .gen e.1) g.digest) else none
    | none => none))

/-- The report of Table 17-6. -/
def State.report (s : State) (nonce : Bytes) (h : Nat) (es : List Bytes) (t : Nat) : Bytes :=
  let body := leBytes 4 0x52545441 ++ leBytes 2 1 ++ leBytes 2 es.length ++ leBytes 4 h ++ leBytes 4 s.fab.knots.version ++
    fitB 32 nonce ++ leBytes 8 t ++ fitB 32 s.ident.moduleId ++ (s.ident.digests.map (fun d => fitB 32 d)).flatten ++
    leBytes 4 s.ident.romVersion ++ (s.ident.versions.map (fun v => leBytes 4 v)).flatten ++
    leBytes 4 (b2n s.tripLatched + 2 * b2n (s.boot.fallback != 0)) ++ zeroB 4 ++ es.flatten
  body ++ s.signature body

/-- The report is written, or a check fails: the context's handle, then the buffer. -/
def State.endAttest (s : State) (a t : Nat) : State :=
  let b := s.mem.view a 64
  let h := fieldB b 0x20 4
  let dst := fieldB b 0x28 8
  let s1 := s.onIdent (fun i => { i with attesting := none })
  let code := if h = 0 then 0 else s.checkOwn .ctx h
  let es := if h = 0 then [] else s.attestEntries (hIdx h)
  let n := 208 + 40 * es.length + 3312
  if !s.populated a 64 then s1.secResult Reg.SEC_ATTEST Err.length
  else if code ≠ 0 then s1.secResult Reg.SEC_ATTEST code
  else if fieldB b 0x30 8 < n || !s.populated dst n then s1.secResult Reg.SEC_ATTEST Err.length
  else ((s1.spend.unitWrite dst (s.report (b.take 32) h es t) 0 (s.draw % 2 ^ 16) 0).secResult Reg.SEC_ATTEST 0).raise secPage 2

def execReportWritten (t : Nat) (s : State) : Host.Outcome State Fault Refusal :=
  ok (s.whenUp (fun s => match s.ident.attesting with
    | some x => (s.at t).endAttest x.1 (s.at t).time
    | none => s))

end Sys2Proof.Machine
end

