-- ==== Sys2Proof/Machine/KvMove.lean ====
section
/-!
DEFINITION. Spill to far memory and prefetch (R226 to R232, R434).
-/

namespace Sys2Proof.Machine

/-- Bytes of a spilled frame with its trailer (R228). -/
abbrev farBytes : Nat := 0x10100

/-- Nonce and additional data of a frame's encryption (R228). The additional data holds the request handle, the group and the page
as three words. DESIGN CHOICE: log entry 31. -/
def kvNonce (far seq : Nat) : Bytes := leBytes 3 far ++ leBytes 8 seq ++ [(0 : Byte)]
def kvAad (handle group page : Nat) : Bytes := leBytes 4 handle ++ leBytes 4 group ++ leBytes 4 page

/-! ### Pages of a request -/

/-- Pages of a group that a request holds, as (page, entry): in a ring, from the page of the oldest key in the window on (R226). -/
def KvGroup.pagesOf (g : KvGroup) (W len : Nat) : List (Nat × Nat) :=
  let first := if g.ring then (len + 1 - W) / g.tokens else 0
  (upFrom first (g.entries W)).map (fun p => (p, g.entryOf W p))

/-- A request's entries that hold something, as (page, group, entry, directory entry), lowest page first. -/
def State.pagesOf (s : State) (x : ReqEnt) : List (Nat × Nat × Nat × DirEnt) :=
  let k := s.kvOf x
  let all := k.groups.zipIdx.flatMap (fun g => (g.1.pagesOf k.window x.length).map (fun p =>
    (p.1, g.2, p.2, s.dirEnt x p.2)))
  sortBy (fun e => [e.1, e.2.1]) (all.filter (fun e => e.2.2.2.state != 0))

/-- The group and page that a directory entry of a request holds. -/
def State.pageOf (s : State) (x : ReqEnt) (entry : Nat) : Nat × Nat :=
  match (s.pagesOf x).find? (fun e => e.2.2.1 == entry) with
  | some e => (e.2.1, e.1)
  | none => (0, 0)

/-! ### Selection (R226, R227) -/

/-- Requests with a RESIDENT frame on a die that their context can still spill. -/
def State.canSpill (s : State) (die : Nat) (x : ReqEnt) : Bool :=
  (match s.ctx x.ctx with
    | some c => c.farSlot.isSome
    | none => false) &&
  (s.pagesOf x).any (fun e => e.2.2.2.state == 1 && e.2.2.2.die == die)

def State.liveReqs (s : State) : List (Nat × ReqEnt) :=
  s.req.entries.filterMap (fun e => match e.2 with
    | some x => if x.live then some (e.1, x) else none
    | none => none)

/-- First order of R226: paused requests, the oldest pause first. -/
def State.pausedOrder (s : State) (die : Nat) : List (Nat × ReqEnt) :=
  sortBy (fun e => [e.2.pauseStamp, e.1]) (s.liveReqs.filter (fun e =>
    (e.2.state == Rq.paused || e.2.state == Rq.spilled) && s.canSpill die e.2))

/-- Second order: spillable working requests of low priority. -/
def State.spillOrder (s : State) (die : Nat) : List (Nat × ReqEnt) :=
  sortBy (fun e => [e.2.priority, e.2.admitStamp, e.1]) (s.liveReqs.filter (fun e =>
    e.2.working && e.2.spillable && e.2.priority ≤ s.fld (kvpPage die) Reg.KVP_SPILL_CFG 2 0 && s.canSpill die e.2))

/-- May the engine take frames of a held request at `t`: its gate's stamp has passed, and no step in progress has it? -/
def State.holdPassed (s : State) (die i t : Nat) (x : ReqEnt) : Bool :=
  !s.rostered i x && (s.pool die).holds.any (fun h => h.1 == i && h.2.any (fun g => decide (g < t)))

/-- Place a spill hold on a request; where its context runs no plan, no gate stands between. -/
def State.placeHold (s : State) (die i : Nat) (x : ReqEnt) : State :=
  let p := s.pool die
  (s.setPool die { p with holds := p.holds ++ [(i, if s.running x.ctx then none else some s.time)] }).setReq i
    (some { x with spillHold := true })

/-! ### Spills -/

/-- A frame begins to move out (R228): its entry goes to SPILL_OUT, and its ciphertext with the trailer is written on VC 4. -/
def State.spillFrame (s : State) (die i : Nat) (x : ReqEnt) (group page entry : Nat) (e : DirEnt) : State :=
  match s.ctx x.ctx with
  | none => s
  | some c => match c.farSlot with
    | none => s
    | some far =>
      let addr := s.frameAddr die e.frame
      let r := s.unitRead addr 0x10000
      let scr := (upFrom (addr / 4096) 16).map (fun b => r.2.mem.scribeOf b)
      let out := Config.gcmSeal c.kvKey (kvNonce far c.spillSeq) (kvAad (s.handleOf .req i) group page) r.1.data
      let bytes := fitB 0x10000 out.1 ++ scr.flatMap (fun w => leBytes 8 w.toNat) ++ fitB 16 out.2 ++ leBytes 8 c.spillSeq ++
        zeroB 104
      let h : Holder := ⟨i, x.ctx, entry, x.dir + 8 * entry, 1, far, false⟩
      let s1 := ((r.2.setCtx x.ctx (some { c.takeFar with spillSeq := c.spillSeq + 1 })).setHolder die e.frame h).putDir
        (x.dir + 8 * entry) x.ctx { e with state := 2, far := far }
      let s2 := if x.state = Rq.paused then s1.setReq i (some { x with state := Rq.spilled }) else s1
      let s3 := s2.startBytes (hIdx c.kv.farChannel) 4 (c.kv.farBase + far * farBytes) bytes
      if Flag.isPoison r.1.flags then s3.poisonEntry h else s3

/-- The lowest page of a request on the die moves out. -/
def State.spillNext (s : State) (die i : Nat) (x : ReqEnt) : State :=
  match (s.pagesOf x).find? (fun e => e.2.2.2.state == 1 && e.2.2.2.die == die) with
  | some e => s.spillFrame die i x e.2.1 e.1 e.2.2.1 e.2.2.2
  | none => s

/-- The spill engine selects: a paused request, else one whose hold has passed its gate, else it places one hold. -/
def State.spillStart (s : State) (die t : Nat) : State :=
  match s.pausedOrder die with
  | e :: _ => s.spillNext die e.1 e.2
  | [] => match (s.spillOrder die).find? (fun e => s.holdPassed die e.1 t e.2) with
    | some e => s.spillNext die e.1 e.2
    | none =>
      if (s.pool die).holds.any (fun h => h.2.isNone) then s
      else match (s.spillOrder die).find? (fun e => !e.2.spillHold) with
        | some e => s.placeHold die e.1 e.2
        | none => s

def execSpillStart (die t : Nat) (s : State) : Host.Outcome State Fault Refusal :=
  ok (s.whenUp (fun s =>
    if s.awake die && (s.pool die).spilling && s.fld (kvpPage die) Reg.KVP_SPILL_CFG 31 31 == 1 then
      (s.at t).spillStart die (s.at t).time
    else s))

/-- A transfer has failed (R231). -/
def State.xferFail (s : State) (die : Nat) (h : Holder) (fetch : Bool) : State :=
  ((s.bump (kvpPage die) Reg.KVP_XFER_FAIL_COUNT).raise (kvpPage die) 4).wr (kvpPage die) Reg.KVP_LAST_FAIL
    (packW [(31, 1), (30, b2n fetch), (16, h.ctx % 1024), (0, h.req % 2 ^ 16)])

/-- Write the directory entry behind a frame, unless its context is gone. -/
def State.putHeld (s : State) (h : Holder) (e : DirEnt) : State := if h.ctx < 1024 then s.putDir h.addr h.ctx e else s

/-- A request's hold lifts once every entry is RESIDENT again (R227). -/
def State.liftHold (s : State) (i : Nat) : State :=
  match s.reqEnt i with
  | some x =>
    if x.spillHold && (s.heldEntries x).all (fun e => e.2.2.state == 1) then
      (s.setReq i (some { x with spillHold := false })).dropHold i
    else s
  | none => s

/-- The frame and far slot of a transfer whose request has ended return, once (R232). -/
def State.returnOrphan (s : State) (die f : Nat) (h : Holder) : State :=
  ((s.freeFrame die f).freeFar h.ctx h.far).putHeld h DirEnt.empty

/-- The entry behind a frame as the directory has it now. -/
def State.entAt (s : State) (h : Holder) : DirEnt := DirEnt.ofNat (leNat (s.mem.view h.addr 8))

/-- A resumed request whose spill completes has its entry fetched back (Table 07-7). -/
def State.fetchIfResuming (s : State) (i : Nat) : State :=
  match s.reqEnt i with
  | some x => if x.state = Rq.resuming then s.queueFetch i 0 x else s
  | none => s

def State.spillEnd (s : State) (die f : Nat) (h : Holder) (good : Bool) : State :=
  if h.orphan then (if good then s else s.xferFail die h false).returnOrphan die f h
  else if good then
    ((((s.freeFrame die f).addFar die true).bump (kvpPage die) Reg.KVP_SPILL_COUNT).putHeld h
      { s.entAt h with state := 3, far := h.far, frame := 0 }).fetchIfResuming h.req
  else
    ((((s.setHolder die f { h with kind := 0 }).freeFar h.ctx h.far).putHeld h { s.entAt h with state := 1, far := 0 }).xferFail
      die h false).liftHold h.req

def execSpillComplete (die frame : Nat) (good : Bool) (t : Nat) (s : State) : Host.Outcome State Fault Refusal :=
  ok (s.whenUp (fun s => match look none (s.pool die).held frame with
    | some h => if h.kind = 1 then (s.at t).spillEnd die frame h good else s
    | none => s))

/-! ### Prefetch (R229) -/

/-- Place of a queued request in the order of R229: resumed ones in order, then by priority and deadline, then held ones by
priority. -/
def State.fetchKey (s : State) (e : (Nat × Nat) × Nat) : List Nat :=
  match s.reqEnt e.1.2 with
  | none => [3]
  | some x =>
    let dl := if x.deadline = 0 then 2 ^ 64 else x.deadline
    if e.1.1 = 0 then [0, e.2] else if e.1.1 = 1 then [1, 7 - x.priority, dl, e.2] else [2, 7 - x.priority, e.2]

/-- Queued requests in order; held ones only once the spill engine has stopped. -/
def State.fetchOrder (s : State) (die : Nat) : List Nat :=
  let p := s.pool die
  (sortBy s.fetchKey (p.fetch.zipIdx.filter (fun e => e.1.1 != 2 || !p.spilling))).map (fun e => e.1.2)

/-- Directory entries of a request that are FAR on a die, as (entry, directory entry). -/
def State.farEntries (s : State) (die : Nat) (x : ReqEnt) : List (Nat × DirEnt) :=
  ((s.heldEntries x).filter (fun e => e.2.2.state == 3 && e.2.2.die == die)).map (fun e => (e.2.1, e.2.2))

/-- Entries go from FAR to FETCH_IN, each with a new frame, and their reads start on VC 4. -/
def State.fetchEntries (s : State) (die i : Nat) (x : ReqEnt) : List (Nat × DirEnt) → State
  | [] => s
  | e :: es =>
    (match s.takeFrame die ⟨i, x.ctx, e.1, x.dir + 8 * e.1, 2, e.2.far, false⟩ with
      | none => s
      | some r =>
        let k := s.kvOf x
        (((r.2.addFar die false).putDir (x.dir + 8 * e.1) x.ctx { e.2 with state := 4, frame := r.1 }).startRead
          (hIdx k.farChannel) 4 0 (k.farBase + e.2.far * farBytes) farBytes none)).fetchEntries die i x es

/-- Does a request of the queue start: its frames can be allocated with enough free frames left? -/
def State.mayFetch (s : State) (die n : Nat) : Bool :=
  s.canGive die n && s.fld (kvpPage die) Reg.KVP_SPILL_ON 23 0 + n ≤ (s.pool die).free

/-- Holds of requests that have no frame away lift once the spill engine has stopped. -/
def State.liftHolds (s : State) (die : Nat) : State :=
  if (s.pool die).spilling then s
  else ((s.pool die).holds.map (fun h => h.1)).foldl (fun (s : State) (i : Nat) => s.liftHold i) s

def State.prefetchStart (s : State) (die : Nat) : State :=
  let s0 := s.liftHolds die
  match s0.fetchOrder die with
  | [] => s0
  | i :: _ => match s0.reqEnt i with
    | none => s0
    | some x =>
      let es := s0.farEntries die x
      if s0.mayFetch die es.length then
        let p := s0.pool die
        (s0.setPool die { p with fetch := p.fetch.filter (fun e => e.2 != i) }).fetchEntries die i x es
      else s0

def execPrefetchStart (die t : Nat) (s : State) : Host.Outcome State Fault Refusal :=
  ok (s.whenUp (fun s => if s.awake die then (s.at t).prefetchStart die else s))

/-- What a prefetch read brings: the frame, its scribes, and whether tag and scribes hold. -/
def openFrame (key : Bytes) (far : Nat) (aad bs : Bytes) : Option (Bytes × List W64) :=
  match Config.gcmOpen key (kvNonce far (fieldB bs 0x10090 8)) aad (bs.take 0x10000) ((bs.drop 0x10080).take 16) with
  | none => none
  | some p =>
    let scr := (upFrom 0 16).map (fun j => (BitVec.ofNat 64 (fieldB bs (0x10000 + 8 * j) 8) : W64))
    let good := p.length == 0x10000 && scr.zipIdx.all (fun w => bitAt (scribeFlags w.1) 4 || Flag.isPoison (scribeFlags w.1) ||
      crc32c ((p.drop (4096 * w.2)).take 4096) == scribeCrc w.1)
    if good then some (p, scr) else none

/-- Write a frame with the scribes it carries: poisoned blocks in poison form. It answers whether one is poisoned. -/
def State.writeFrame (s : State) (addr : Nat) (p : Bytes) : List W64 → Bool × State
  | [] => (false, s)
  | w :: ws =>
    let bad := Flag.isPoison (scribeFlags w)
    let s1 := (s.writeBytes addr (p.take 4096)).onMem (fun m =>
      (if bad then (cwsOf addr 4096).foldl (fun m c => m.poisonCw c) m else m).setScribe (addr / 4096) w)
    let r := s1.writeFrame (addr + 4096) (p.drop 4096) ws
    (bad || r.1, r.2)

/-- A prefetch has failed, or its frame is poisoned: the entry is RESIDENT with poison set (R231, Table 14-10). -/
def State.fetchedBad (s : State) (die f : Nat) (h : Holder) : State :=
  ((s.setHolder die f { h with kind := 0 }).freeFar h.ctx h.far).putHeld h { s.entAt h with state := 1, poison := true, far := 0 }

def State.fetchEnd (s : State) (die f : Nat) (h : Holder) (good : Bool) (bs : Bytes) : State :=
  match s.reqEnt h.req, s.ctx h.ctx with
  | some x, some c =>
    if h.orphan then (if good then s else s.xferFail die h true).returnOrphan die f h
    else
      let gp := s.pageOf x h.entry
      match (if good then openFrame c.kvKey h.far (kvAad (s.handleOf .req h.req) gp.1 gp.2) bs else none) with
      | none => ((s.fetchedBad die f h).xferFail die h true).liftHold h.req
      | some p =>
        let r := s.writeFrame (s.frameAddr die f) p.1 p.2
        let s1 := r.2.bump (kvpPage die) Reg.KVP_FETCH_COUNT
        if r.1 then (s1.fetchedBad die f h).liftHold h.req
        else
          ((((s1.setHolder die f { h with kind := 0 }).freeFar h.ctx h.far).putHeld h { s.entAt h with state := 1, far := 0 }).liftHold
            h.req)
  | _, _ => (if good then s else s.xferFail die h true).returnOrphan die f h

def execPrefetchComplete (die frame : Nat) (good : Bool) (data : Bytes) (t : Nat) (s : State) :
    Host.Outcome State Fault Refusal :=
  ok (s.whenUp (fun s => match look none (s.pool die).held frame with
    | some h => if h.kind = 2 then (s.at t).fetchEnd die frame h good data else s
    | none => s))

end Sys2Proof.Machine
end

