-- ==== Sys2Proof/Machine/Views.lean ====
section
/-!
DEFINITION. What a register word reads as: the fields that the package computes from its state are computed when the word is
read; every other word is the stored one. One function per block page.
-/

namespace Sys2Proof

/-- The 64-bit registers of a page, by the offset of their low word. -/
def is64 (b : Block) (off : Nat) : Bool :=
  off == 0x20 || (match b with
    | .dev => [0x50].contains off
    | .sec => [0x78, 0x88].contains off
    | .log => [0x48, 0x50].contains off
    | .snap => [0x50, 0x58].contains off
    | .pwr => [0x60].contains off
    | .fab => [0x48, 0x58].contains off || (0x60 ≤ off && off < 0x160 && off % 8 == 0)
    | .plan => [0x50].contains off
    | .que => [0x48, 0x58, 0x60].contains off
    | .sync => [0x50].contains off
    | .req => [0x58, 0x70, 0x78].contains off
    | .kvp => [0x48].contains off
    | .wgt => [0x58].contains off
    | .mem => [0x48, 0x50, 0x68].contains off
    | .scrb => [0x48, 0x58].contains off
    | .att => [0x50, 0x58].contains off
    | .port => [0x48, 0x70, 0x78].contains off
    | .arr => [0x58].contains off
    | .cal => [0x50].contains off
    | .pres | .mc | .bent | .shim | .ledg | .grad | .opt | .thm => false)

/-- PAGE_CAP.block_caps of each block, as its chapter gives it. -/
def Block.caps (b : Block) (die : Nat) : Nat :=
  match b with
  | .dev => 8
  | .pres => Config.pageCaps 2 % 2 ^ 24
  | .mc => 0
  | .bent => Config.pageCaps 4 % 2 ^ 24
  | .arr => 3 + 9 * 2 ^ 8 + 2 ^ 12
  | .shim => 16 + 0x800 * 2 ^ 8 + 8 * 2 ^ 20
  | .ledg => 16 + 32 * 2 ^ 8 + 8 * 2 ^ 16
  | .att => 256 + 32 * 2 ^ 9 + 4 * 2 ^ 16
  | .grad => 14 + 2 * 2 ^ 5 + 9 * 2 ^ 8
  | .fab => 8 + 16 * 2 ^ 4 + 32 * 2 ^ 9 + 8 * 2 ^ 15 + 8 * 2 ^ 19
  | .plan => 12 + 4 * 2 ^ 4 + 16 * 2 ^ 7
  | .que => 16
  | .sync => 16
  | .req => 16 + 128 * 2 ^ 5
  | .kvp => 16
  | .wgt => 20 + 12 * 2 ^ 5
  | .mem => 14 + 4 * 2 ^ 5 + 6 * 2 ^ 9
  | .scrb => 12 + 64 * 2 ^ 5
  | .port => 8 + 8 * 2 ^ 4
  | .opt => 2 + 16 * 2 ^ 2
  | .pwr => if die = 0 then 2 else 4
  | .thm => 145 + 108 * 2 ^ 8 + 95 * 2 ^ 16
  | .cal => 5 + 300 * 2 ^ 4 + 20 * 2 ^ 13
  | .sec => 0
  | .log => 6
  | .snap => 0

/-- PAGE_CAP.has_irq. -/
def Block.irqs : Block → Nat
  | .mc => 0
  | .bent => Config.pageCaps 0x104 % 2
  | .dev | .pres | .arr | .shim | .ledg | .att | .grad | .fab | .plan | .que | .sync | .req | .kvp | .wgt | .mem | .scrb
  | .port | .opt | .pwr | .thm | .cal | .sec | .log | .snap => 1

/-- PAGE_CAP.has_shadows: some register of the page has one. -/
def Block.shadows : Block → Bool
  | .dev | .pres | .mc | .sec | .log | .snap | .bent => false
  | .arr | .shim | .ledg | .att | .grad | .fab | .plan | .que | .sync | .req | .kvp | .wgt | .mem | .scrb | .port | .opt
  | .pwr | .thm | .cal => true

end Sys2Proof

namespace Sys2Proof.Machine

/-- The low or the high word of a 64-bit register at `base`. -/
def half (v base off : Nat) : W32 := if off = base then loW v else hiW v

def natMask (n : Nat) (p : Nat → Bool) : Nat := maskOf ((upFrom 0 n).filter p)

/-- 16 bits of a signed number. -/
def s16 (x : Int) : Nat := signedBits 16 x

/-! ### Device pages -/

def State.viewDev (s : State) (p : Page) (off : Nat) : W32 :=
  if off = Reg.DEV_STATUS then
    packW [(31, b2n s.ready), (30, b2n s.boot.failed), (26, s.boot.step), (25, b2n s.boot.hostReleased), (0, s.boot.failCode)]
  else if off = Reg.DEV_READY then loW s.boot.devReady
  else if off = Reg.DEV_PORT_READY then
    (if s.boot.calDone && 2 ≤ s.boot.phase then loW (natMask (8 * s.dies) (fun q => (s.optic (q / 2)).light)) else 0)
  else if off = Reg.DEV_TIME || off = Reg.DEV_TIME + 4 then half s.time Reg.DEV_TIME off
  else s.rd p off

def Variant.code : Variant → Nat
  | .vxj4t => 1
  | .vxj4s => 2
  | .vxj2s => 3

def State.viewPres (s : State) (p : Page) (off : Nat) : W32 :=
  let k := s.knotDie p.die
  if off = Reg.PRES_DEVICE then packW [(24, Variant.code s.variant), (16, 2 ^ s.dies - 1)]
  else if off = Reg.PRES_COMPUTE then packW [(16, if s.hasGrad then 0xFFFF else 0), (0, 0xFFFF)]
  else if off = Reg.PRES_IO then packW [(8, 0xFF), (4, 0xF), (0, 3)]
  else if off = Reg.PRES_RETIRED then packW [(16, if s.hasGrad then maskOf k.grad % 2 ^ 16 else 0), (0, maskOf k.att % 2 ^ 16)]
  else if off = Reg.PRES_KNOT_VER then loW s.fab.knots.version
  else if Reg.PRES_BENT_LIVE ≤ off && off < 0x70 then
    loW (natMask 32 (fun j => !s.bentIsKnot p.die (32 * ((off - Reg.PRES_BENT_LIVE) / 4) + j)))
  else s.rd p off

/-- The firmware has run since the end of step 2. -/
def State.viewMc (s : State) (p : Page) (off : Nat) : W32 :=
  if off = Reg.MC_STATUS then packW [(30, s.boot.mcState), (27, s.boot.fallback % 8), (24, s.boot.copyB % 8)]
  else if off = Reg.MC_HEARTBEAT then
    (if s.fwRuns then loW ((s.time / 1000 - nth 0 s.boot.stepEnd 1) / 1000) else 0)
  else if Reg.MC_STEP_END ≤ off && off < 0x70 then loW (nth 0 s.boot.stepEnd ((off - Reg.MC_STEP_END) / 4))
  else s.rd p off

/-- Word `w` of a byte string, zero past its end. -/
def wordAt (b : Bytes) (w : Nat) : W32 := loW (fieldB b (4 * w) 4)

def State.viewSec (s : State) (p : Page) (off : Nat) : W32 :=
  if off = Reg.SEC_ID_DATA then wordAt s.ident.publicKey (s.fld p Reg.SEC_ID_SEL 8 0)
  else if Reg.SEC_MODULE_ID ≤ off && off < 0x68 then wordAt s.ident.moduleId ((off - Reg.SEC_MODULE_ID) / 4)
  else if off = Reg.SEC_ROM_VERSION then loW s.ident.romVersion
  else if off = Reg.SEC_FW_VERSION then loW (nth 0 s.ident.versions 0)
  else if off = Reg.SEC_CFG_VERSION then loW (nth 0 s.ident.versions 1)
  else if off = Reg.SEC_HOST_VERSION then loW (nth 0 s.ident.versions 2)
  else if off = Reg.SEC_UPDATE then withFieldW (s.rd p off) 31 31 (b2n s.ident.updating.isSome)
  else if off = Reg.SEC_ATTEST then withFieldW (s.rd p off) 31 31 (b2n s.ident.attesting.isSome)
  else s.rd p off

/-- The 64 bytes of an event record (Table 18-3). -/
def LogRec.bytes (r : LogRec) : Bytes :=
  let b := leBytes 8 r.seq ++ leBytes 8 r.time ++ leBytes 4 r.pageId ++ leBytes 1 r.code ++ leBytes 1 r.severity ++
    leBytes 2 (match r.context with
      | some c => 0x8000 + c % 1024
      | none => 0) ++ leBytes 2 r.detail ++ leBytes 2 r.kind ++ leBytes 4 0 ++ leBytes 8 r.addr ++ leBytes 20 r.data
  b ++ leBytes 4 (crc32c b)

/-- LOG_CONS (Table 18-10). -/
def State.consWord (s : State) : W32 :=
  packW [(31, b2n s.req.stopped), (30, b2n s.snap.lastPass), (0, s.snap.consFailed % 128)]

def State.viewLog (s : State) (p : Page) (off : Nat) : W32 :=
  if off = Reg.LOG_STATUS then packW [(31, b2n s.log.wrapped), (0, s.log.buffer.length)]
  else if off = Reg.LOG_HEAD || off = Reg.LOG_HEAD + 4 then
    half ((s.log.ring.getLast?.map (fun r => r.seq)).getD 0) Reg.LOG_HEAD off
  else if off = Reg.LOG_CONS then s.consWord
  else if Reg.LOG_DATA ≤ off && off < 0xC0 then
    (match s.log.ring.find? (fun r => r.seq == s.rd64 p Reg.LOG_SEL) with
     | some r => wordAt r.bytes ((off - Reg.LOG_DATA) / 4)
     | none => 0)
  else s.rd p off

def State.viewSnap (s : State) (p : Page) (off : Nat) : W32 :=
  if off = Reg.SNAP_STATUS then packW [(31, b2n s.snap.busy), (30, b2n s.snap.lastComplete), (0, s.snap.skipped % 16)]
  else if off = Reg.SNAP_SEQ then loW s.snap.seq
  else if off = Reg.SNAP_SLOT || off = Reg.SNAP_SLOT + 4 then half s.snap.slot Reg.SNAP_SLOT off
  else if off = Reg.SNAP_DONE_TIME || off = Reg.SNAP_DONE_TIME + 4 then half s.snap.doneTime Reg.SNAP_DONE_TIME off
  else s.rd p off

/-! ### Power and temperature -/

def State.viewPwr (s : State) (p : Page) (off : Nat) : W32 :=
  let w := s.wakeOf p.die
  if off = Reg.PWR_STATUS then
    packW [(29, w.state), (28, b2n w.waking), (27, b2n s.pwr.inputWarn), (26, b2n (1000 < s.pwr.power)), (21, s.blockers p.die)]
  else if off = Reg.PWR_LIMIT then packW [(16, s.pwr.limitPeak % 2 ^ 16), (0, s.pwr.limitSust % 2 ^ 16)]
  else if off = Reg.PWR_INPUT then
    packW [(16, s.pwr.voltage % 2 ^ 16), (0, s.pwr.watts * 1000 / max 1 s.pwr.voltage % 2 ^ 16)]
  else if off = Reg.PWR_POWER then packW [(16, s.pwr.watts % 2 ^ 16), (0, nth 0 s.pwr.dieW p.die % 2 ^ 16)]
  else if off = Reg.PWR_DEMAND then loW s.pwr.power
  else if off = Reg.PWR_ENERGY || off = Reg.PWR_ENERGY + 4 then half (s.pwr.energy / 100) Reg.PWR_ENERGY off
  else s.rd p off

/-- The latest trip record. -/
def State.lastTrip (s : State) : Option Trip := s.flash.trips.getLast?

def State.tripWord (s : State) : W32 :=
  match s.lastTrip with
  | some r => packW [(31, b2n s.tripLatched), (28, r.cause % 8), (26, r.die % 4), (16, r.sensor % 256), (0, s16 r.temp)]
  | none => 0

def State.viewThm (s : State) (p : Page) (off : Nat) : W32 :=
  let l := nth [] s.sensors p.die
  let x := nth Sensor.reset l (s.fld p Reg.THM_SENSOR_SEL 7 0)
  let sel := s.fld p Reg.THM_SENSOR_SEL 7 0 < 145
  let hot := hottest (s.readings p.die)
  if off = Reg.THM_STATUS then
    packW [(31, b2n (1000 < s.pwr.thermal)), (30, b2n s.tripLatched), (29, b2n s.pwr.coolantWarn),
      (28, b2n (nth false s.pwr.diodeBad p.die)), (0, (l.filter (fun r => r.broken)).length % 256)]
  else if off = Reg.THM_MAX then packW [(16, s16 hot.2), (0, hot.1)]
  else if off = Reg.THM_DEMAND then loW s.pwr.thermal
  else if off = Reg.THM_SENSOR_DATA then (if sel then packW [(31, b2n x.broken), (0, s16 x.temp)] else 0)
  else if off = Reg.THM_SENSOR_RAW then (if sel then packW [(0, s16 x.raw)] else 0)
  else if off = Reg.THM_COOLANT then packW [(16, s16 s.pwr.outlet), (0, s16 s.pwr.inlet)]
  else if off = Reg.THM_TRIP then s.tripWord
  else if off = Reg.THM_TRIP_SEQ then loW s.flash.tripSeq
  else s.rd p off

/-! ### Fabric and plans -/

def State.bridgeWord (s : State) (die : Nat) : W32 :=
  let q := State.prevDie die
  let next := s.hasBridge die
  let prev := s.hasBridge q
  packW [(24, if next then (s.knotDie die).channels % 16 else 0), (20, if prev then (s.knotDie q).channels % 16 else 0),
    (8, if next then nth 63 s.fab.modules die % 64 else 0), (0, if prev then nth 63 s.fab.modules q % 64 else 0)]

def State.viewFab (s : State) (p : Page) (off : Nat) : W32 :=
  if off = Reg.FAB_STATUS then
    packW [(31, b2n s.fab.stalled), (30, b2n (1000 < s.pwr.pacer)), (29, b2n s.flash.reissue),
      (28, b2n (knotCopyOk s.flash.knotB)), (27, b2n (knotCopyOk s.flash.knotA))]
  else if off = Reg.FAB_PACER then loW s.pwr.pacer
  else if off = Reg.FAB_SLOT || off = Reg.FAB_SLOT + 4 then half (s.slotOf p.die 0) Reg.FAB_SLOT off
  else if off = Reg.FAB_BRIDGE then s.bridgeWord p.die
  else if Reg.FAB_SHARE_USED_T ≤ off && off < 0x160 then
    (let t := (off - Reg.FAB_SHARE_USED_T) / 8
     half (s.shareUsed p.die t) (Reg.FAB_SHARE_USED_T + 8 * t) off)
  else if off = Reg.FAB_KNOT_DATA then wordAt (s.fab.knots.bytes s.dies) (s.fld p Reg.FAB_KNOT_SEL 7 0)
  else s.rd p off

/-- PLAN_CTX_STATE of a context (Table 11-16). -/
def State.ctxState (s : State) (c : Nat) (x : Ctx) : W32 :=
  match x.run, s.live c with
  | some r, some l =>
    let st := if !r.stop.isEmpty || r.destroy.isSome then 3 else if r.gate.isSome && !r.released then 2 else 1
    packW [(29, st), (28, b2n r.strict), (25, r.sched % 8), (21, if r.gate.isSome && !r.released then s.waitingOn l else 0),
      (8, r.plan), (0, x.lastError)]
  | _, _ => packW [(29, if x.faultState then 4 else 0), (28, b2n x.lastStrict), (25, x.lastSched % 8), (8, x.lastPlan), (0, x.lastError)]

/-- Is a load being checked by the queue engine of this die (Table 11-14)? DEDUCED: it lasts from the start of a PLAN_LOAD of a queue
homed here until the load is carried out (log entry 92). -/
def State.loaderBusy (s : State) (die : Nat) : Bool :=
  s.que.flights.any (fun f => f.phase == .started && dOpcode f.desc == 0x0B && f.home == die)

def State.viewPlan (s : State) (p : Page) (off : Nat) : W32 :=
  let c := s.fld p Reg.PLAN_CTX_SEL 9 0
  let e := s.fld p Reg.PLAN_ESC_SEL 9 0
  if off = Reg.PLAN_STATUS then packW [(31, b2n (s.loaderBusy p.die)), (0, s.plans.length)]
  else match s.ctx c with
    | none => if off = Reg.PLAN_CTX_STATE || off = Reg.PLAN_CTX_STEPS || off = Reg.PLAN_CTX_STEPS + 4 || off = Reg.PLAN_ESC then 0
        else s.rd p off
    | some x =>
      if off = Reg.PLAN_CTX_STATE then s.ctxState c x
      else if off = Reg.PLAN_CTX_STEPS || off = Reg.PLAN_CTX_STEPS + 4 then half x.steps Reg.PLAN_CTX_STEPS off
      else if off = Reg.PLAN_ESC then packW [(31, b2n (x.esc.contains e)), (30, b2n (x.escUnavail.contains e))]
      else s.rd p off

/-! ### Queues, objects and requests -/

def State.viewQue (s : State) (p : Page) (off : Nat) : W32 :=
  let t := s.adminSel
  if off = Reg.QUE_STATUS then packW [(31, b2n (!s.que.stopped.isEmpty))]
  else if off = Reg.QUE_ADMIN_BASE || off = Reg.QUE_ADMIN_BASE + 4 then half (look 0 s.que.adminBase t) Reg.QUE_ADMIN_BASE off
  else if off = Reg.QUE_ADMIN_CFG then packW [(31, b2n (look false s.que.adminEn t)), (0, look 0xFFFF s.que.adminMsix t % 2 ^ 16)]
  else if off = Reg.QUE_ADMIN_CTRL || off = Reg.QUE_ADMIN_CTRL + 4 then half (look 0 s.que.adminCtrl t) Reg.QUE_ADMIN_CTRL off
  else if Reg.QUE_TENANT_CAP_T ≤ off && off < 0xC0 then
    withFieldW (s.rd p off) 31 16 (s.tenantSlots ((off - Reg.QUE_TENANT_CAP_T) / 4))
  else if off = Reg.QUE_CENSUS_INFLIGHT then packW [(0, s.que.flights.length)]
  else if off = Reg.QUE_CENSUS_FREE then packW [(0, 40000 - s.que.flights.length)]
  else if off = Reg.QUE_CENSUS_QUEUES then packW [(0, s.que.queues.length)]
  else s.rd p off

/-- Synchronisation objects in existence, and free slots. -/
def State.syncAllocated (s : State) : Nat := (s.handles.sync.slots.filter (fun e => e.2.live)).length
def State.syncFree (s : State) : Nat := 65536 - s.handles.sync.fresh + s.handles.sync.freed.length

def State.viewSync (s : State) (p : Page) (off : Nat) : W32 :=
  if off = Reg.SYNC_STATUS then packW [(0, s.syncAllocated)]
  else if off = Reg.SYNC_CENSUS_FREE then packW [(0, s.syncFree)]
  else s.rd p off

/-- REQ_CTX_GEN of a context: its current generation, and the one fixed for the next step. -/
def State.ctxGen (s : State) (c : Nat) : Nat :=
  match s.ctx c with
  | some x => x.curGen + (match x.run with
      | some r => r.nextGen
      | none => 0) * 2 ^ 32
  | none => 0

def State.viewReq (s : State) (p : Page) (off : Nat) : W32 :=
  let c := s.fld p Reg.REQ_CTX_SEL 9 0
  if off = Reg.REQ_STATUS then packW [(31, b2n s.req.stopped), (30, b2n s.req.censusFail)]
  else if off = Reg.REQ_CTX_CFG then loW (look reqCfgReset s.req.cfg c)
  else if off = Reg.REQ_CTX_URGENT then loW (look 0 s.req.urgent c)
  else if off = Reg.REQ_CTX_GEN || off = Reg.REQ_CTX_GEN + 4 then half (s.ctxGen c) Reg.REQ_CTX_GEN off
  else if off = Reg.REQ_CENSUS_FREE then packW [(0, s.req.free)]
  else if off = Reg.REQ_CENSUS_LIVE then packW [(0, s.req.live)]
  else if off = Reg.REQ_CENSUS_ENDED then packW [(0, s.req.ended)]
  else if off = Reg.REQ_TOKENS_COMMITTED || off = Reg.REQ_TOKENS_COMMITTED + 4 then half s.req.committed Reg.REQ_TOKENS_COMMITTED off
  else if off = Reg.REQ_TOKENS_DELIVERED || off = Reg.REQ_TOKENS_DELIVERED + 4 then half s.req.delivered Reg.REQ_TOKENS_DELIVERED off
  else if Reg.REQ_ENTRY_DATA ≤ off && off < 0x180 then loW (nth 0 s.req.captured ((off - Reg.REQ_ENTRY_DATA) / 4))
  else s.rd p off

def State.viewKvp (s : State) (p : Page) (off : Nat) : W32 :=
  let k := s.pool p.die
  if off = Reg.KVP_STATUS then
    packW [(31, b2n k.enable), (30, b2n k.spilling), (29, b2n k.censusFail), (0, min 0xFFFF k.fetch.length)]
  else if off = Reg.KVP_CTRL then packW [(0, b2n k.enable)]
  else if off = Reg.KVP_POOL_BASE || off = Reg.KVP_POOL_BASE + 4 then half k.base Reg.KVP_POOL_BASE off
  else if off = Reg.KVP_POOL_FRAMES then loW k.frames
  else if off = Reg.KVP_CENSUS_FREE then loW k.free
  else if off = Reg.KVP_CENSUS_ALLOC then loW k.alloc
  else if off = Reg.KVP_CENSUS_TRANSIT then loW k.transit
  else if off = Reg.KVP_FAR_PAGES then loW k.far
  else s.rd p off

/-! ### Weights and memory -/

/-- WGT_GEN_INFO.state (Table 13-13). -/
def State.genState (s : State) (i : Nat) (g : Gen) : Nat :=
  let h := s.handleOf .gen i
  if g.quarantined then 5
  else if g.readyAt.isNone then 1
  else match s.ctx g.ctx with
    | some x => if x.curGen == h then 3 else if x.genQueue.any (fun e => e.1 == h) then 2 else 4
    | none => 4

def State.genWord (s : State) (i : Nat) : W32 :=
  match look none s.gens i with
  | some g => packW [(29, s.genState i g), (19, g.ctx % 1024), (0, min 0xFFFF g.shards.length)]
  | none => 0

/-- Shards on their way to a die. -/
def State.fetching (s : State) (die : Nat) : Nat :=
  sumL (s.gens.map (fun e => match e.2 with
    | some g => if g.isSeal then 0 else (g.shards.filter (fun h => h.home == die && !h.passed)).length
    | none => 0))

def State.viewWgt (s : State) (p : Page) (off : Nat) : W32 :=
  let t := s.hashTodo p.die
  let e := match (s.hasher p.die).rehash with
    | some e => e
    | none => t.headD (0, 0)
  if off = Reg.WGT_STATUS then
    packW [(31, b2n (s.hashing p.die && !t.isEmpty)), (30, b2n (s.gens.any (fun e => match e.2 with
      | some g => g.quarantined && g.shards.any (fun h => h.home == p.die)
      | none => false))), (0, min 0xFFFF (s.fetching p.die))]
  else if off = Reg.WGT_HASH_POS then packW [(16, hIdx e.1 % 4096), (0, e.2 % 2 ^ 16)]
  else if off = Reg.WGT_GEN_INFO then s.genWord (s.fld p Reg.WGT_GEN_SEL 11 0)
  else s.rd p off

def State.viewMem (s : State) (p : Page) (off : Nat) : W32 :=
  let st := fun j => 2 * p.die + j
  let two := fun (f : Nat → Bool) => b2n (f (st 0)) + 2 * b2n (f (st 1))
  let used := fun j => look 0 s.mem.spares (st j)
  if off = Reg.MEM_STATUS then
    packW [(31, b2n (s.boot.phase == 2 && s.boot.step == 5)), (30, b2n (s.boot.fillDone.contains p.die)),
      (28, two (fun k => (look none s.mem.regionScrub k).isSome)), (26, two (fun k => 16384 ≤ look 0 s.mem.spares k)),
      (24, two (fun k => s.selfRefresh k))]
  else if off = Reg.MEM_SCRUB_POS || off = Reg.MEM_SCRUB_POS + 4 then half (if s.boot.fillDone.contains p.die then s.patrolPos (st 0) else 0) Reg.MEM_SCRUB_POS off
  else if off = Reg.MEM_SCRUB_POS + 8 || off = Reg.MEM_SCRUB_POS + 12 then half (if s.boot.fillDone.contains p.die then s.patrolPos (st 1) else 0) (Reg.MEM_SCRUB_POS + 8) off
  else if off = Reg.MEM_SPARE then packW [(16, used 1), (0, used 0)]
  else if off = Reg.MEM_HOST_LINK then packW [(0, nth 15 s.fab.hostModules p.die % 16)]
  else if off = Reg.MEM_POISON_LIST then
    packW [(31, b2n (look false s.mem.poisonOver p.die)), (0, (look [] s.mem.poison p.die).length)]
  else s.rd p off

/-! ### Engines, gradient units, ports -/

def State.viewAtt (s : State) (p : Page) (off : Nat) : W32 :=
  let a := s.att p.die p.unit
  if off = Reg.ATT_STATUS then
    packW [(31, b2n (s.attIsKnot p.die p.unit)), (16, a.state), (0, if a.state = 0 then 0 else min 0xFFFF a.tasks.length)]
  else if off = Reg.ATT_SHARE then packW [(16, min 0xFFFF (ceilDiv a.length 1024)), (0, min 0xFFFF a.share)]
  else s.rd p off

def State.viewGrad (s : State) (p : Page) (off : Nat) : W32 :=
  let u := s.grad p.die p.unit
  let waits := s.ctxs.any (fun e => match e.2 with
    | some x => (match x.run with
      | some r => r.gate.isSome && r.swapWaits.contains (1, unitKey p.die p.unit)
      | none => false)
    | none => false)
  if off = Reg.GRAD_STATUS then
    packW [(31, b2n (s.gradIsKnot p.die p.unit)), (3, b2n (u.bank1.state == 2)), (2, b2n (u.bank0.state == 2)), (1, b2n waits),
      (0, u.active)]
  else if off = Reg.GRAD_FOLD_PENDING then
    packW [(0, (s.folds.filter (fun f => f.queued && f.unit == unitKey p.die p.unit)).length)]
  else s.rd p off

def State.viewPort (s : State) (p : Page) (off : Nat) : W32 :=
  let q := 8 * p.die + p.unit
  let x := s.port q
  if off = Reg.PORT_STATUS then
    packW [(29, x.state), (28, b2n x.native), (8, if s.portUp q then x.active % 256 else 0), (0, x.retired % 256)]
  else if off = Reg.PORT_MAC || off = Reg.PORT_MAC + 4 then half (s.portMac q) Reg.PORT_MAC off
  else if off = Reg.PORT_TX_LIMIT then loW (s.txLimit q)
  else if off = Reg.PORT_TX_AVAIL then loW (s.txAvail q)
  else if off = Reg.PORT_TX_OUT then loW (s.txOut q)
  else if off = Reg.PORT_RX_LIMIT then loW (s.rxLimit q)
  else if off = Reg.PORT_RX_HELD then loW (s.rxHeld q)
  else if off = Reg.PORT_RX_FREE then loW (s.rxLimit q - s.rxHeld q)
  else if off = Reg.PORT_CHANNELS then loW (s.portSum q (fun _ => 1))
  else s.rd p off

def State.viewOpt (s : State) (p : Page) (off : Nat) : W32 :=
  let e := 4 * p.die + p.unit
  let l := s.fld p Reg.OPT_LANE_SEL 3 0
  if off = Reg.OPT_STATUS then packW [(31, b2n (s.optic e).light)]
  else if off = Reg.OPT_LASER then packW [(0, s16 (s.optic e).power)]
  else if off = Reg.OPT_TEMP then packW [(0, s16 (Config.opticTemp e s.time))]
  else if off = Reg.OPT_LANE_DATA then
    if s.boot.phase < 2 then 0 else packW [(16, s16 (Config.lanePower e l s.time true)), (0, s16 (Config.lanePower e l s.time false))]
  else if off = Reg.OPT_LANE_BER then loW (nth 0 (s.port (2 * e + l / 8)).ber (l % 8))
  else s.rd p off

/-! ### Bents -/

/-- Rows of the current or last load written: all of them once it is complete, none while it runs. -/
def State.viewArr (s : State) (p : Page) (off : Nat) : W32 :=
  let a := s.arr p.die p.unit p.sub
  if off = Reg.ARR_STATUS then
    packW [(31, b2n (a.retired != 0)), (28, a.retired % 8), (8, b2n (s.calBent p.die p.unit).running.isSome),
      (7, b2n a.draining), (6, b2n a.swapWaiting), (5, b2n a.poisoned), (3, a.staged % 4), (0, a.live)]
  else if off = Reg.ARR_TAGS then packW [(16, a.stagedPlane.tag % 2 ^ 16), (0, a.livePlane.tag % 2 ^ 16)]
  else if off = Reg.ARR_LOAD then packW [(24, a.loadError % 256), (0, a.rows % 1024)]
  else s.rd p off

/-- Reserve beats that no claim takes before the array's next swap, from the slot that the bent's router is in. -/
def State.reserveLeft (s : State) (die bent a : Nat) : Nat :=
  match s.owner die bent with
  | none => 0
  | some c => match s.live c with
    | none => 0
    | some l => match l.planSlot (s.slotOf die bent) with
      | none => 0
      | some n => ((l.reserve die bent a).filter (fun r => n ≤ r && r < l.nextSwap die bent a n &&
          !(s.arr die bent a).claims.any (fun k => k.slot == r))).length

/-- A SHIM page's words. SHIM_STATUS.staged_residuals is that of an accepted staged bank, and 0 while a load runs or after a refused
one: DESIGN CHOICE, log entry 81. -/
def State.viewShim (s : State) (p : Page) (off : Nat) : W32 :=
  let a := s.arr p.die p.unit p.sub
  let sel := s.rd p Reg.SHIM_COEF_SEL
  let i := fieldW sel 10 0
  if off = Reg.SHIM_STATUS then
    packW [(31, b2n a.draining), (30, b2n a.escPending), (16, a.livePlane.resid.length % 4096),
      (4, if a.staged = 2 then a.stagedPlane.resid.length % 4096 else 0), (2, a.bankState % 4), (1, a.activeCoef % 2)]
  else if off = Reg.SHIM_RESERVE then
    packW [(16, min 0xFFFF (s.reserveLeft p.die p.unit p.sub)), (0, a.store.length % 512)]
  else if off = Reg.SHIM_COEF_DATA then
    (if i < 544 then coefOf (a.coefs (fieldW sel 12 12)) (coefKey (bitAt sel.toNat 11) i) else 0)
  else s.rd p off

def State.viewLedg (s : State) (p : Page) (off : Nat) : W32 :=
  let b := s.bent p.die p.unit
  let t := s.fld p Reg.LEDG_ACC_SEL 11 8
  let r := s.fld p Reg.LEDG_ACC_SEL 4 0
  let x := b.row (rowKey t r)
  let fl := b.ledgFlags (16 * t + r / 2)
  if off = Reg.LEDG_STATUS then packW [(0, natMask 16 (fun t => b.held t))]
  else if off = Reg.LEDG_ACC_INFO then
    packW [(31, b2n x.isOpen), (30, b2n (fl &&& Flag.bound != 0)), (29, b2n (fl &&& Flag.poison != 0)),
      (28, b2n (fl &&& Flag.stale != 0)), (27, b2n (look false b.tent (16 * t + r / 2))), (18, min 511 x.passCount),
      (8, min 1023 x.outstanding), (0, x.epoch % 256)]
  else s.rd p off

def State.viewCal (s : State) (p : Page) (off : Nat) : W32 :=
  let k := s.calBent p.die p.unit
  let cal := fun a => (s.arr p.die p.unit a).cal
  let sel := s.rd p Reg.CAL_LINE_SEL
  let line := coefKey (bitAt sel.toNat 10) (fieldW sel 9 0)
  if off = Reg.CAL_STATUS then
    packW [(30, if k.running.isSome then 2 else if k.trigger != 0 then 1 else 0), (26, natMask 4 (fun a => (cal a).stale)),
      (22, natMask 4 (fun a => (cal a).isOver)), (21, bits k.trigger 2 2), (20, bits k.trigger 1 1), (19, bits k.trigger 0 0),
      (18, b2n (s.bentIsKnot p.die p.unit))]
  else if off = Reg.CAL_TEMP then packW [(16, s16 k.tCal), (0, s16 k.tNow)]
  else if off = Reg.CAL_LINE_DATA then
    (if fieldW sel 9 0 < 544 then
      packW [(16, look 0 (cal (fieldW sel 12 11)).resid line % 2 ^ 16), (0, look 0 (cal (fieldW sel 12 11)).noise line % 2 ^ 16)]
     else 0)
  else if Reg.CAL_RESID ≤ off && off < 0xA0 then withFieldW (s.rd p off) 31 31 (b2n (cal ((off - Reg.CAL_RESID) / 16)).stale)
  else s.rd p off

/-! ### The words of any page -/

/-- A register word of a block's own, live. -/
def State.viewBlk (s : State) (p : Page) (off : Nat) : W32 :=
  match p.blk with
  | .dev => s.viewDev p off
  | .pres => s.viewPres p off
  | .mc => s.viewMc p off
  | .bent => 0
  | .arr => s.viewArr p off
  | .shim => s.viewShim p off
  | .ledg => s.viewLedg p off
  | .att => s.viewAtt p off
  | .grad => s.viewGrad p off
  | .fab => s.viewFab p off
  | .plan => s.viewPlan p off
  | .que => s.viewQue p off
  | .sync => s.viewSync p off
  | .req => s.viewReq p off
  | .kvp => s.viewKvp p off
  | .wgt => s.viewWgt p off
  | .mem => s.viewMem p off
  | .scrb => s.rd p off
  | .port => s.viewPort p off
  | .opt => s.viewOpt p off
  | .pwr => s.viewPwr p off
  | .thm => s.viewThm p off
  | .cal => s.viewCal p off
  | .sec => s.viewSec p off
  | .log => s.viewLog p off
  | .snap => s.viewSnap p off

/-- PAGE_STAT.block_stat: what each chapter mirrors there. -/
def State.blockStat (s : State) (p : Page) : Nat :=
  let f := fun off hi lo => fieldW (s.viewBlk p off) hi lo
  match p.blk with
  | .dev => f Reg.DEV_STATUS 31 30
  | .arr => f Reg.ARR_STATUS 31 31 + 2 * f Reg.ARR_STATUS 0 0 + 4 * f Reg.ARR_STATUS 4 3
  | .shim => f Reg.SHIM_STATUS 1 1 + 2 * f Reg.SHIM_STATUS 30 30 + 4 * f Reg.SHIM_STATUS 3 2
  | .ledg => f Reg.LEDG_STATUS 15 0
  | .att => f Reg.ATT_STATUS 17 16
  | .grad => f Reg.GRAD_STATUS 3 0
  | .fab => f Reg.FAB_STATUS 31 29
  | .plan => f Reg.PLAN_STATUS 31 31
  | .que => f Reg.QUE_STATUS 31 31
  | .req => f Reg.REQ_STATUS 31 30
  | .kvp => f Reg.KVP_STATUS 31 29
  | .wgt => f Reg.WGT_STATUS 31 30
  | .mem => f Reg.MEM_STATUS 31 30
  | .port => f Reg.PORT_STATUS 31 29
  | .pwr => f Reg.PWR_STATUS 31 29
  | .thm => f Reg.THM_STATUS 31 30
  | .cal => f Reg.CAL_STATUS 31 30
  | .log => f Reg.LOG_CONS 31 30
  | .pres | .mc | .bent | .sync | .scrb | .opt | .sec | .snap => 0

/-- PAGE_STAT.busy: the unit has accepted work that has not completed. -/
def State.pageBusy (s : State) (p : Page) : Bool :=
  match p.blk with
  | .dev => s.boot.phase == 2 && !s.boot.failed
  | .arr =>
    let a := s.arr p.die p.unit p.sub
    a.loading.isSome || !a.waiting.isEmpty || a.passes.any (fun x => x.stage != .settled)
  | .shim => let a := s.arr p.die p.unit p.sub; !a.passes.isEmpty || !a.store.isEmpty
  | .ledg => (upFrom 0 16).any (fun t => (s.bent p.die p.unit).held t)
  | .att => (s.att p.die p.unit).state != 0
  | .grad => let u := s.grad p.die p.unit; u.bank0.state != 0 || u.bank1.state != 0
  | .plan => s.ctxs.any (fun e => match e.2 with
      | some x => (match x.run with
        | some r => r.lead == p.die
        | none => false)
      | none => false) || s.loaderBusy p.die
  | .que => !s.que.flights.isEmpty
  | .req => !s.req.due.isEmpty
  | .kvp => (s.pool p.die).transit != 0 || !(s.pool p.die).fetch.isEmpty
  | .wgt => s.fetching p.die != 0 || s.hashing p.die
  | .mem => s.boot.phase == 2 && s.boot.step == 5
  | .port => s.chans.any (fun e => match e.2 with
      | some x => x.port == 8 * p.die + p.unit && !(x.unacked.isEmpty && x.queued.isEmpty)
      | none => false)
  | .pwr => (s.wakeOf p.die).waking
  | .thm => s.shut.isSome
  | .cal => (s.calBent p.die p.unit).running.isSome
  | .sec => s.ident.updating.isSome || s.ident.attesting.isSome
  | .log => !s.log.buffer.isEmpty
  | .snap => s.snap.busy
  | .fab => s.fab.stalled
  | .pres | .mc | .bent | .sync | .scrb | .opt => false

/-- The header words that are computed: PAGE_ID, PAGE_CAP and PAGE_STAT; the write-only bit of PAGE_CTRL is never stored. -/
def State.viewHead (s : State) (p : Page) (off : Nat) : W32 :=
  if off = Reg.PAGE_ID then loW p.id
  else if off = Reg.PAGE_CAP then
    packW [(28, p.sub % 16), (27, b2n p.blk.mirrored), (26, b2n p.blk.shadows), (25, p.blk.irqs), (0, p.blk.caps p.die)]
  else if off = Reg.PAGE_STAT then
    packW [(16, s.blockStat p % 2 ^ 16), (3, b2n (s.fld p Reg.PAGE_ERR_CODE 31 16 != 0)), (2, b2n (s.errValid p)),
      (1, b2n (s.pageBusy p)), (0, 1)]
  else s.rd p off

/-- Offset of the live register behind a shadow (R505). -/
def shadowOf (b : Block) (off : Nat) : Option Nat :=
  if 0x800 ≤ off && off < 0x1000 && shadowed b (off - 0x800) then some (off - 0x800) else none

/-- The value of a register word of a page with a unit behind it; a reserved offset reads as zero (R14). -/
def State.word (s : State) (p : Page) (off : Nat) : W32 :=
  if off < 0x40 then (if (regWord p.blk off).isSome then s.viewHead p off else 0)
  else if (shadowOf p.blk off).isSome then s.rd p off
  else if (regWord p.blk off).isSome then s.viewBlk p off
  else 0

end Sys2Proof.Machine
end

