-- ==== Sys2Proof/Machine/Snaps.lean ====
section
/-!
DEFINITION. Snapshots (R314 to R317, R505 to R507), device-wide audits (R508 to R512) and the event log's records (R514).
-/

namespace Sys2Proof.Machine

abbrev snapPage : Page := diePage .snap 0

def State.onSnap (s : State) (f : SnapSt → SnapSt) : State := { s with snap := f s.snap }

/-! ### Requests (R314, R506) -/

/-- The named slot: the first multiple of 64 at least 4,096 slots beyond FAB_SLOT of F0; during a stall, beyond the slot in
which the fabric resumes (R317). -/
def State.namedSlot (s : State) : Nat :=
  64 * ceilDiv ((if s.fab.stalled then s.fab.resumeAt else s.slotOf 0 0) + 4096) 64

/-- Accept a snapshot. -/
def State.startSnap (s : State) (clear : Bool) (w : List SnapFor) : State :=
  (s.onSnap (fun x => { x with
    busy := true, seq := (x.seq + 1) % 2 ^ 32, slot := s.namedSlot, clear := clear, waiters := w })).bump snapPage
    Reg.SNAP_REQUEST_COUNT

/-- Software asks for a snapshot: while one is busy the write is ignored and counted. -/
def State.requestSnap (s : State) (clear : Bool) : State :=
  if s.snap.busy then s.bump snapPage Reg.SNAP_REFUSED_COUNT else s.startSnap clear [.software]

/-- An audit asks for a snapshot without clear, and waits while one is busy (R510). -/
def State.auditSnap (s : State) (w : SnapFor) : State :=
  if s.snap.busy then s.onSnap (fun x => { x with queued := x.queued ++ [w] }) else s.startSnap false [w]

def execSnapRequest (clear : Bool) (s : State) : Host.Outcome State Fault Refusal :=
  ok (s.hostPage snapPage (fun s => s.requestSnap clear))

def execConsAudit (s : State) : Host.Outcome State Fault Refusal := ok (s.hostPage logPage (fun s => s.auditSnap .audit))
def execConsResume (s : State) : Host.Outcome State Fault Refusal := ok (s.hostPage logPage (fun s => s.auditSnap .resume))

/-- The periodic audit of R510: the management controller asks for a snapshot itself. -/
def execPeriodicAudit (t : Nat) (s : State) : Host.Outcome State Fault Refusal :=
  ok (s.whenUp (fun s => if s.fwRuns && s.fld logPage Reg.LOG_AUDIT_CFG 15 0 != 0 then (s.at t).auditSnap .periodic else s))

/-! ### Copies (R315 to R317, R505) -/

/-- Blocks whose units copy in the scheduled fabric's own slot; the other blocks with shadows are queued units. -/
def scheduled (b : Block) : Bool := [Block.arr, .shim, .ledg, .att, .grad, .cal, .fab].contains b

/-- Bent of the router that serves a page. -/
def pageBent (p : Page) : Nat :=
  match p.blk with
  | .bent | .arr | .shim | .ledg | .cal => p.unit
  | .att | .grad => unitBent p.unit
  | .dev | .pres | .mc | .sec | .log | .snap | .pwr | .thm | .fab | .plan | .que | .sync | .req | .kvp | .wgt | .mem
  | .scrb | .port | .opt => 0

/-- Blocks whose clocks the wake states W1 to W3 gate (Table 16-4). -/
def gatedBlock (b : Block) : Bool := [Block.arr, .shim, .ledg, .cal, .bent, .att, .grad].contains b

/-- Does the clock of a page's unit run (R317)? -/
def State.clocked (s : State) (p : Page) : Bool :=
  let w := (s.wakeOf p.die).state
  w == 0 || (w < 4 && !gatedBlock p.blk)

/-- Slots after a pass's last beat at which its next stage falls (Table 05-1). -/
def stageOff (st : Stage) : Nat :=
  match st with
  | .quantised => 0
  | .driven => 24
  | .checked => 31
  | .settled => 47

/-- Have a bent's units made every update of the slots up to `n`: the stages of its passes, its ledger words and its vector words? -/
def State.bentDone (s : State) (die bent n : Nat) : Bool :=
  match (s.owner die bent).bind (fun c => s.live c) with
  | none => true
  | some l =>
    let top := l.r.gate.getD l.nextGate
    let ran := fun (slot : Nat) => l.r.inStep && l.r.lastGate ≤ slot && decide (slot < top) && decide (l.fabSlot slot ≤ n)
    (upFrom 0 4).all (fun a => (s.arr die bent a).passes.all (fun p =>
      decide ((top : Int) ≤ p.slot + stageOff p.stage) || decide (n < l.fabSlotAt (p.slot + stageOff p.stage)))) &&
    (l.words 2 die bent 0).all (fun w => !(ran w.1 && 1 ≤ bits w.2 63 60 && bits w.2 63 60 ≤ 6) ||
      l.fabSlot w.1 < (s.bent die bent).ledgAt) &&
    (l.words 3 die bent 0).all (fun w => !(ran w.1 && bits w.2 63 60 == 1) || s.isGiven die bent vecPort (l.fabSlot w.1))

/-- Has the named slot ended for a page's unit: at its router, of a FAB page at every living router of the die, with the updates of
the slots up to it made (R315)? -/
def State.slotEnded (s : State) (p : Page) : Bool :=
  let n := s.snap.slot
  match p.blk with
  | .fab => (upFrom 0 128).all (fun b => (s.knotDie p.die).routers.contains b || n < s.slotOf p.die b)
  | .bent | .arr | .shim | .ledg | .cal => n < s.slotOf p.die p.unit && s.bentDone p.die p.unit n
  | .dev | .pres | .mc | .att | .grad | .sec | .log | .snap | .pwr | .thm | .plan | .que | .sync | .req | .kvp | .wgt | .mem
  | .scrb | .port | .opt => n < s.slotOf p.die (pageBent p)

/-- May a page copy now: a snapshot is busy, the page is a present one with shadows that has not copied it, its clock runs, and the
named slot has ended for it? -/
def State.mayCopy (s : State) (p : Page) : Bool :=
  s.snap.busy && p.blk.shadows && s.pagePresent p && p.die == p.homeDie && s.clocked p && !s.copied p && s.slotEnded p

/-- Offsets of the words of a page that have a shadow. -/
def shadowOffs (b : Block) : List Nat := (b.words.map (fun d => d.off)).filter (fun o => shadowed b o)

/-- What a shadow takes: the live value, and of FAB_SLOT the named slot (R321). -/
def State.shadowNow (s : State) (p : Page) (o : Nat) : W32 :=
  if p.blk = .fab && o = Reg.FAB_SLOT then loW s.snap.slot
  else if p.blk = .fab && o = Reg.FAB_SLOT + 4 then loW (s.snap.slot / 2 ^ 32)
  else s.word p o

/-- Every shadow of a page takes its value. -/
def State.takeShadows (s : State) (p : Page) : List Nat → State
  | [] => s
  | o :: os => (s.wr p (o + 0x800) (s.shadowNow p o)).takeShadows p os

/-- Every live counter of a page that clears on reading is set to zero. -/
def State.clearCounters (s : State) (p : Page) : List WordDef → State
  | [] => s
  | d :: ds => (if d.rc = 0 then s else s.wr p d.off (s.rd p d.off &&& ~~~(BitVec.ofNat 32 d.rc))).clearCounters p ds

/-- A page copies its shadowed registers and notes the sequence number. -/
def State.copyPage (s : State) (p : Page) : State :=
  let s1 := s.takeShadows p (shadowOffs p.blk)
  let s2 := if s.snap.clear then s1.clearCounters p p.blk.words else s1
  s2.wr p Reg.PAGE_SNAP_SEQ (loW s.snap.seq)

def execSnapshotCopy (p : Page) (s : State) : Host.Outcome State Fault Refusal :=
  ok (s.whenUp (fun s => if scheduled p.blk && s.mayCopy p then s.copyPage p else s))

/-- Items that a queued unit takes from inputs that the marker has not yet passed are added to its shadowed counts (R316). -/
def State.addLate (s : State) (p : Page) : List (Nat × Nat) → State
  | [] => s
  | x :: xs => (if shadowed p.blk x.1 then s.wr p (x.1 + 0x800) (s.rd p (x.1 + 0x800) + BitVec.ofNat 32 x.2) else s).addLate p xs

def execSnapshotMarker (m : MarkerAt) (s : State) : Host.Outcome State Fault Refusal :=
  ok (s.whenUp (fun s => if !scheduled m.page.blk && s.mayCopy m.page then (s.copyPage m.page).addLate m.page m.late else s))

/-! ### Audits (R508 to R512) -/

/-- A shadow, as a number. -/
def State.sh (s : State) (p : Page) (off : Nat) : Nat := (s.rd p (off + 0x800)).toNat
def State.sh64 (s : State) (p : Page) (off : Nat) : Nat := s.rd64 p (off + 0x800)

/-- Row 0 of Table 18-2 on one port. -/
def State.portHolds (s : State) (q : Nat) : Bool :=
  let p := portPage q
  !s.copied p || (s.sh p Reg.PORT_TX_AVAIL + s.sh p Reg.PORT_TX_OUT == s.sh p Reg.PORT_TX_LIMIT &&
    s.sh p Reg.PORT_RX_HELD + s.sh p Reg.PORT_RX_FREE == s.sh p Reg.PORT_RX_LIMIT)

/-- Row 1 on one die. The bitmap has no shadow: its identity is checked on the pool as it is. -/
def State.kvHolds (s : State) (die : Nat) : Bool :=
  let p := kvpPage die
  let k := s.pool die
  !s.copied p || (s.sh p Reg.KVP_CENSUS_FREE + s.sh p Reg.KVP_CENSUS_ALLOC + s.sh p Reg.KVP_CENSUS_TRANSIT == k.frames &&
    k.held.length == k.alloc + k.transit)

/-- Far slots that the contexts' spill areas have given out. -/
def State.farHeld (s : State) : Nat :=
  sumL (s.ctxs.map (fun e => match e.2 with
    | some x => x.farNext - x.farFree.length
    | none => 0))

/-- Directory entries homed on a die in state SPILL_OUT or FETCH_IN. -/
def KvPool.moving (k : KvPool) : Nat :=
  (k.held.filter (fun e => match e.2 with
    | some h => h.kind != 0 && h.ctx < 1024
    | none => false)).length

/-- Row 2. The far slots and the directory states have no shadow: the identity is checked on them as they are. -/
def State.farHolds (s : State) : Bool :=
  sumL (s.pools.map (fun k => k.far + k.moving)) == s.farHeld

/-- Rows 3 to 6. -/
def State.cutListHolds (s : State) : Bool :=
  s.sh reqPage Reg.REQ_CENSUS_FREE + s.sh reqPage Reg.REQ_CENSUS_LIVE + s.sh reqPage Reg.REQ_CENSUS_ENDED == 65536
def State.tokensHold (s : State) : Bool := s.sh64 reqPage Reg.REQ_TOKENS_COMMITTED == s.sh64 reqPage Reg.REQ_TOKENS_DELIVERED
def State.slotsHold (s : State) : Bool := s.sh quePage Reg.QUE_CENSUS_INFLIGHT + s.sh quePage Reg.QUE_CENSUS_FREE == 40000
def State.syncsHold (s : State) : Bool := s.sh syncPage Reg.SYNC_STATUS + s.sh syncPage Reg.SYNC_CENSUS_FREE == 65536

def State.badPorts (s : State) : List Nat := (upFrom 0 (8 * s.dies)).filter (fun q => !s.portHolds q)
def State.badPools (s : State) : List Nat := (upFrom 0 s.dies).filter (fun d => !s.kvHolds d)

/-- Rows of Table 18-2 that do not hold in the snapshot. -/
def State.badRows (s : State) : List Nat :=
  (if s.badPorts.isEmpty then [] else [0]) ++ (if s.badPools.isEmpty then [] else [1]) ++ (if s.farHolds then [] else [2]) ++
    (if s.cutListHolds then [] else [3]) ++ (if s.tokensHold then [] else [4]) ++ (if s.slotsHold then [] else [5]) ++
    (if s.syncsHold then [] else [6])

/-- The page of each block that failed latches CONSERVATION_FAULT. -/
def State.latchBad (s : State) : State :=
  let s1 := s.badPorts.foldl (fun s q => s.portFault q) s
  let s2 := (if s.farHolds then s.badPools else upFrom 0 s.dies).foldl (fun s d => s.kvpFault d) s1
  let s3 := if s.cutListHolds && s.tokensHold then s2 else s2.reqFault
  let s4 := if s.slotsHold then s3 else s3.latchErr quePage Err.conservation none 0 0
  if s.syncsHold then s4 else s4.latchErr syncPage Err.conservation none 0 0

/-- A device-wide audit (R510 to R512); `resume`: a resumption of admission waits for it. -/
def State.deviceAudit (s : State) (resume : Bool) : State :=
  let s1 := s.bump logPage Reg.LOG_AUDIT_COUNT
  if s.badRows.isEmpty then
    { s1 with
      req := { s1.req with stopped := s1.req.stopped && !resume }
      snap := { s1.snap with lastPass := true, consFailed := if resume then 0 else s1.snap.consFailed } }
  else s1.latchBad.auditFailed s.badRows

/-! ### The end of a snapshot (R507) -/

/-- Pages that must copy: of every present unit with shadows. -/
def diePages (die : Nat) : List Page :=
  [Block.fab, .plan, .kvp, .wgt, .mem, .scrb, .pwr, .thm].map (fun b => diePage b die) ++
    (upFrom 0 16).flatMap (fun e => [unitPage .att die e, unitPage .grad die e]) ++
    (upFrom 0 8).map (fun i => unitPage .port die i) ++ (upFrom 0 4).map (fun i => unitPage .opt die i) ++
    (upFrom 0 128).flatMap (fun b => [unitPage .ledg die b, unitPage .cal die b] ++
      (upFrom 0 4).flatMap (fun a => [arrPage .arr die b a, arrPage .shim die b a]))

def State.allCopied (s : State) : Bool :=
  [quePage, syncPage, reqPage].all (fun p => s.copied p) &&
    (upFrom 0 s.dies).all (fun d => (s.wakeOf d).state == 4 || (diePages d).all (fun p => !s.pagePresent p || s.copied p))

/-- A reply of the monitor about a page, none for the package: it carries the page's owner tag (R53). -/
def State.monReplyOn (s : State) (p : Option Page) (values : List Nat) (code : Nat) : State :=
  let tag := match p with
    | some p => (s.rd p Reg.PAGE_OWNER).toNat
    | none => 0
  { s with out := { s.out with mon := s.out.mon ++ [⟨values, code, tag⟩] } }

def State.monReply (s : State) (values : List Nat) (code : Nat) : State := s.monReplyOn none values code

/-- The monitor's reply to a command that waited for the snapshot. What `snap` answers when the snapshot did not complete is
not stated: its code is free. -/
def State.answerWaiter (s : State) (complete : Bool) (w : SnapFor) : State :=
  match w with
  | .monSnap => if complete then s.monReply [s.snap.seq] 0 else s.spend.monReply [] (s.draw % 17)
  | .monAudit => s.monReply [s.consWord.toNat] 0
  | .monResume => s.monReply [] 0
  | .software | .periodic | .audit | .resume => s

def isResume (w : SnapFor) : Bool :=
  match w with
  | .resume | .monResume => true
  | .software | .periodic | .audit | .monSnap | .monAudit => false

/-- The next waiting audit gets its snapshot. -/
def State.nextSnap (s : State) : State :=
  match s.snap.queued with
  | [] => s
  | w :: ws => (s.onSnap (fun x => { x with queued := ws })).startSnap false [w]

/-- A snapshot ends: one that completed is audited. -/
def State.endSnap (s : State) (complete : Bool) : State :=
  let ws := s.snap.waiters
  let skipped := natMask s.dies (fun d => (s.wakeOf d).state == 4)
  let s1 := (s.onSnap (fun x => { x with
    busy := false, lastComplete := complete, skipped := skipped, doneTime := s.time, waiters := [] })).raise snapPage 1
  let s2 := if complete then s1.deviceAudit (ws.any isResume) else s1
  (ws.foldl (fun s w => s.answerWaiter complete w) s2).nextSnap

def execSnapshotComplete (t : Nat) (s : State) : Host.Outcome State Fault Refusal :=
  ok (s.whenUp (fun s => if s.snap.busy && s.allCopied then (s.at t).endSnap true else s))

/-- 10 ms of device time after the named slot, the device ends a snapshot that is not complete. -/
def execSnapshotTimeout (t : Nat) (s : State) : Host.Outcome State Fault Refusal :=
  ok (s.whenOn (fun s => if s.snap.busy && !s.allCopied then (s.at t).endSnap false else s))

/-! ### The event log (R514) -/

/-- Records that the ring holds. -/
abbrev ringRecords : Nat := 720896

/-- A record is written: a full ring is first erased by its oldest 1,024 records. -/
def State.writeRecordLog (s : State) : State :=
  match s.log.buffer with
  | [] => s
  | r :: rs =>
    let full := ringRecords ≤ s.log.ring.length
    ({ s with log := { s.log with
      buffer := rs, ring := (if full then s.log.ring.drop 1024 else s.log.ring) ++ [r], wrapped := s.log.wrapped || full } } :
      State).bump logPage Reg.LOG_RECORD_COUNT

def execLogRecordWrite (s : State) : Host.Outcome State Fault Refusal :=
  ok (s.whenOn (fun s => if s.fwRuns then s.writeRecordLog else s))

end Sys2Proof.Machine
end

