-- ==== Sys2Proof/Machine/Access.lean ====
section
/-!
DEFINITION. Host accesses (R39 to R49): what an address names, reads and writes of registers, MSI-X table words and T1 by the
outcomes of Table 02-6, and the memory-device mailbox.
-/

namespace Sys2Proof.Machine

/-! ### Addresses (Tables 02-2 to 02-5) -/

abbrev windowBase : Nat := 0x1000000000
abbrev windowBytes : Nat := 0x10000000

/-- What an address names: word `w` of an MSI-X table entry, a word of the pending-bit array, a register word of a page, a
reserved part of a window, T1, or nothing. -/
inductive Target where
  | msix (die entry w : Nat)
  | pba (die w : Nat)
  | reg (p : Page) (off : Nat)
  | reserved
  | mem
  | hole
  deriving DecidableEq, Repr

/-- The die page at an index (Table 02-4). -/
def diePageAt (die ix : Nat) : Option Page :=
  let one := [Block.dev, .pres, .mc, .sec, .log, .snap, .pwr, .thm, .fab, .plan, .que, .sync, .req, .kvp, .wgt, .mem, .scrb]
  if ix < 0x11 then (one[ix]?).map (fun b => diePage b die)
  else if 0x20 ≤ ix && ix < 0x30 then some (unitPage .att die (ix - 0x20))
  else if 0x30 ≤ ix && ix < 0x40 then some (unitPage .grad die (ix - 0x30))
  else if 0x40 ≤ ix && ix < 0x48 then some (unitPage .port die (ix - 0x40))
  else if 0x48 ≤ ix && ix < 0x4C then some (unitPage .opt die (ix - 0x48))
  else none

/-- The page of a bent at an index (Table 02-5). -/
def bentPageAt (die bent ix : Nat) : Option Page :=
  if ix = 0 then some (unitPage .bent die bent)
  else if ix ≤ 4 then some (arrPage .arr die bent (ix - 1))
  else if ix ≤ 8 then some (arrPage .shim die bent (ix - 5))
  else if ix = 9 then some (unitPage .ledg die bent)
  else if ix = 10 then some (unitPage .cal die bent)
  else none

def regTarget (p : Option Page) (off : Nat) : Target :=
  match p with
  | some p => .reg p off
  | none => .reserved

/-- Offset `o` of a die's window (Table 02-3). -/
def windowTarget (die o : Nat) : Target :=
  if o < 0xF0000 then regTarget (diePageAt die (o / 0x1000)) (o % 0x1000)
  else if o < 0xF8000 then .msix die ((o - 0xF0000) / 16) (o / 4 % 4)
  else if o < 0xF8100 then .pba die ((o - 0xF8000) / 4)
  else if 0x1000000 ≤ o && o < 0x1800000 then regTarget (bentPageAt die ((o - 0x1000000) / 0x10000) (o / 0x1000 % 16)) (o % 0x1000)
  else .reserved

def targetOf (a : Nat) : Target :=
  if windowBase ≤ a && a < windowBase + 4 * windowBytes then
    windowTarget ((a - windowBase) / windowBytes) ((a - windowBase) % windowBytes)
  else if t1Base ≤ a && a < t1Base + 8 * stackSpan then .mem
  else .hole

/-- Frame die whose link or window an address goes through. -/
def dieOfAddr (a : Nat) : Nat := if t1Base ≤ a then dieOf a else (a - windowBase) / windowBytes

/-- Is a page one that answers for its die in W4? -/
def State.pageAsleep (s : State) (p : Page) : Bool := (s.wakeOf p.die).state == 4 && !standbyBlock p.blk

/-- Does a page of the block hold a register or a shadow at the offset? Any other offset is reserved: it reads as zero and a
write is ignored, before any other condition (R14, Table 02-6). -/
def offDeclared (b : Block) (off : Nat) : Bool := (regWord b off).isSome || (0x800 ≤ off && shadowed b (off - 0x800))

/-! ### Reads -/

/-- A read of a register word takes its side effects: counters that clear on reading, and the capture of REQ_ENTRY_DATA. -/
def State.readEffect (s : State) (p : Page) (off : Nat) : State :=
  match regWord p.blk off with
  | none => s
  | some d =>
    if d.rc = 0 then s else s.wr p off (s.rd p off &&& ~~~(BitVec.ofNat 32 d.rc))

/-- Words that a read captures before it returns. -/
def State.readFirst (s : State) (p : Page) (off : Nat) : State :=
  if p.blk = .req && off = Reg.REQ_ENTRY_DATA && s.ready then s.captureEntry else s

/-- A 4-byte read of a window: the value, `none` for a completer abort. -/
def State.readWord (s : State) (a : Nat) : Option Nat × State :=
  match targetOf a with
  | .msix die e w => (some (if s.dieOk die then (s.msixWord die e w).toNat else 0), s)
  | .pba die w => (some (if s.dieOk die then (look 0 s.regs (pbaKey die (32 * w))).toNat else 0), s)
  | .reg p off =>
    if !s.pagePresent p || !offDeclared p.blk off then (some 0, s)
    else if s.pageAsleep p then (none, s.wakeDemand p.die)
    else
      let s1 := (if standbyBlock p.blk then s else s.wakeDemand p.die).readFirst p off
      (some (s1.word p off).toNat, s1.readEffect p off)
  | .reserved => (some 0, s)
  | .mem | .hole => (none, s)

/-- Is a register access naturally aligned and 4 or 8 bytes wide (R42)? -/
def aligned (a n : Nat) : Bool := (n == 4 || n == 8) && a % n == 0

/-- A read of a register window (R42): the lower word first. -/
def State.readReg (s : State) (a n : Nat) : HostResp × State :=
  if !aligned a n then (.loadFault, s)
  else
    let r := s.readWord a
    match r.1 with
    | none => (.loadFault, r.2)
    | some x =>
      if n = 4 then (.data x, r.2)
      else
        let q := r.2.readWord (a + 4)
        match q.1 with
        | none => (.loadFault, q.2)
        | some y => (.data (x + y * 2 ^ 32), q.2)

/-- The bent page behind an address of the window onto a bent's bench and ledger tiles (Table 02-5). -/
def benchWindow (a : Nat) : Option Page :=
  match targetOf a with
  | .reg p off => if p.blk = .bent && decide (0x40 ≤ off) then some p else none
  | .msix _ _ _ | .pba _ _ | .reserved | .mem | .hole => none

/-- A word of T0 (R34, R189); none lies above its 2 MiB. -/
def State.benchWord (s : State) (p : Page) (a : Nat) : Nat :=
  if a < 0x200000 then ((s.bent p.die p.unit).word (a / 4)).toNat else 0

/-- A read of T0 through the bent page (R34, R189, Table 02-6): the window shows the word at T0 address `t0`; where the page lays the
window out is not given (log entry 59). An uncorrectable word is a completer abort. -/
def State.readBench (s : State) (p : Page) (n t0 : Nat) (sram : SramRead) : HostResp × State :=
  if !s.pagePresent p then (.data 0, s)
  else if s.pageAsleep p then (.loadFault, s.wakeDemand p.die)
  else
    let s1 := (s.wakeDemand p.die).sramSeen (ledgPage p.die p.unit) sram none
    if sramLost sram then (.loadFault, s1)
    else (.data (s.benchWord p t0 + (if n = 8 then s.benchWord p (t0 + 4) * 2 ^ 32 else 0)), s1)

/-- A host read of a register window, the one onto T0 among them. -/
def State.hostLoad (s : State) (a n t0 : Nat) (sram : SramRead) : HostResp × State :=
  match benchWindow a with
  | some p => if aligned a n then s.readBench p n t0 sram else (.loadFault, s)
  | none => s.readReg a n

/-- A host read of T1 (Table 02-6): one that meets an uncorrectable codeword returns poison. -/
def State.readMem (s : State) (a n : Nat) : HostResp × State :=
  if n = 0 || !s.populated a n then (.loadFault, s)
  else if (s.wakeOf (dieOf a)).state = 4 then (.loadFault, s.wakeDemand (dieOf a))
  else
    let s0 := if (s.wakeOf (dieOf a)).state = 3 then s.wakeDemand (dieOf a) else s
    let v := leNat (s0.mem.view a n)
    let bad := (cwsOf a n).any (fun c => s0.mem.cwBad c)
    (if bad then .poisoned else .data v, s0.touchCws (cwsOf a n))

/-- Any read of the host address map. -/
def State.hostRead (s : State) (a n : Nat) : HostResp × State :=
  match targetOf a with
  | .mem => s.readMem a n
  | .hole => (.loadFault, s)
  | .msix _ _ _ | .pba _ _ | .reg _ _ | .reserved => s.readReg a n

/-! ### Writes -/

/-- A write by the access types of Table 00-4; reserved bits are ignored (R14). -/
def State.plainWrite (s : State) (p : Page) (off v : Nat) : State :=
  match regWord p.blk off with
  | none => s
  | some d =>
    let rw := BitVec.ofNat 32 d.rw
    let w1c := BitVec.ofNat 32 d.w1c
    let x := loW v
    let old := s.rd p off
    s.wr p off ((old &&& ~~~(rw ||| w1c)) ||| (x &&& rw) ||| (old &&& w1c &&& ~~~x))

/-- A write of PAGE_IRQ_STAT: the line's message goes out again when it stays high (R63). -/
def State.ackIrq (s : State) (p : Page) (v : Nat) : State :=
  let s1 := s.plainWrite p Reg.PAGE_IRQ_STAT v
  if s1.line p then s1.sendPage p else s1

def State.writeHead (s : State) (p : Page) (off v : Nat) : State :=
  if off = Reg.PAGE_CTRL then
    let s1 := riseFrom s (s.plainWrite p off v) p
    if bitAt v 1 then s1.clearErr p else s1
  else if off = Reg.PAGE_IRQ_STAT then s.ackIrq p v
  else if off = Reg.PAGE_IRQ_EN then riseFrom s (s.plainWrite p off v) p
  else s.plainWrite p off v

/-- QUE_ADMIN_CFG: enable creates and destroys the admin queues (R341); the message entry follows while the setting stands. -/
def State.adminCfg (s : State) (v : Nat) : State :=
  let t := s.adminSel
  let on := look false s.que.adminEn t
  if bitAt v 31 && !on then s.adminEnable t (v % 2 ^ 16)
  else
    let s1 : State := { s with que := { s.que with adminMsix := put 0xFFFF s.que.adminMsix t (v % 2 ^ 16) } }
    if !bitAt v 31 && on then s1.adminDisable t
    else match s1.queue (16 + t) with
      | some x => s1.setQueue (16 + t) (some { x with msix := if v % 2 ^ 16 < 2048 then v % 2 ^ 16 else 0xFFFF })
      | none => s1

/-- Admin addresses are writable while the tenant's queues do not exist. -/
def State.adminFree (s : State) : Bool := !look false s.que.adminEn s.adminSel && s.adminGone s.adminSel

/-- May KVP_POOL_BASE and KVP_POOL_FRAMES be written (R221)? -/
def KvPool.idle (k : KvPool) : Bool := !k.enable && k.alloc == 0 && k.transit == 0

def State.writeKvp (s : State) (p : Page) (off v : Nat) : State :=
  let k := s.pool p.die
  if off = Reg.KVP_CTRL then
    let s1 := s.setPool p.die { k with enable := bitAt v 0 }
    if bitAt v 1 then s1.kvpAudit p.die else s1
  else if off = Reg.KVP_POOL_FRAMES then
    (if k.idle then s.setPool p.die { k with frames := v % 2 ^ 24, free := v % 2 ^ 24 } else s).spillCheck p.die
  else (s.plainWrite p off v).spillCheck p.die

/-- PORT_CFG: enable, then clear_retired, retrain and census. -/
def State.writePort (s : State) (p : Page) (v : Nat) : State :=
  let q := 8 * p.die + p.unit
  let was := s.portEnabled q
  let s1 := s.plainWrite p Reg.PORT_CFG v
  let s2 := if was && !bitAt v 31 then (if (s1.port q).state = 6 then s1 else s1.portTo q 0)
    else if !was && bitAt v 31 && (s1.port q).state = 0 then s1.train q else s1
  let s3 := if bitAt v 28 then s2.clearRetired q else s2
  let s4 := if bitAt v 29 && (s3.port q).state != 6 then s3.train q else s3
  if bitAt v 27 then s4.portAudit q else s4

/-- FAB_KNOT_CTRL: what both bits together do is not stated; the mark is then free. -/
def State.writeKnotCtrl (s : State) (v : Nat) : State :=
  if bitAt v 0 && bitAt v 1 then s.spend.setReissue (s.draw % 2 == 1)
  else if bitAt v 0 then s.setReissue true
  else if bitAt v 1 then s.setReissue false
  else s

def State.writeSync (s : State) (v : Nat) : State :=
  if v % 4 = 1 then s.hostSyncRead else if v % 4 = 2 then s.hostSyncAdd else if v % 4 = 3 then s.hostSyncSet else s

def State.writePlanEsc (s : State) (die v : Nat) : State :=
  if v % 4 = 1 then s.askEsc die 0 else if v % 4 = 2 then s.askEsc die 1 else s

def State.writeReq (s : State) (p : Page) (off v : Nat) : State :=
  let c := s.fld reqPage Reg.REQ_CTX_SEL 9 0
  if off = Reg.REQ_CTRL then (if bitAt v 0 then s.reqAudit else s)
  else if off = Reg.REQ_CTX_CFG then
    { s with req := { s.req with cfg := put reqCfgReset s.req.cfg c ((loW v &&& 0xF0F0F).toNat) } }
  else if off = Reg.REQ_CTX_URGENT then { s with req := { s.req with urgent := put 0 s.req.urgent c (v % 2 ^ 32) } }
  else s.plainWrite p off v

def State.writePwr (s : State) (p : Page) (off v : Nat) : State :=
  if off = Reg.PWR_WAKE_LAT then s.setLatency p.die (v % 2 ^ 32)
  else if off = Reg.PWR_WAKE then (if bitAt v 0 then s.wakeDemand p.die else s)
  else if off = Reg.PWR_LIMIT then s.onPwr (fun x => { x with limitPeak := bits v 31 16, limitSust := bits v 15 0 })
  else s.plainWrite p off v

/-- A 4-byte write of a register word of a block's own. -/
def State.writeBlk (s : State) (p : Page) (off v : Nat) : State :=
  match p.blk with
  | .sec =>
    if off = Reg.SEC_UPDATE then
      (let s1 := s.plainWrite p off v; if bitAt v 0 then s1.startUpdate (bits v 2 1) else s1)
    else if off = Reg.SEC_ATTEST then (if bitAt v 0 then s.startAttest else s)
    else s.plainWrite p off v
  | .log =>
    if off = Reg.LOG_CONS_CTRL then
      let s1 := if bitAt v 1 then s.auditSnap .audit else s
      if bitAt v 0 then s1.auditSnap .resume else s1
    else s.plainWrite p off v
  | .snap => if off = Reg.SNAP_CTRL then (if bitAt v 0 then s.requestSnap (bitAt v 1) else s) else s.plainWrite p off v
  | .pwr => s.writePwr p off v
  | .thm => if off = Reg.THM_TRIP_ACK then s.tripAck p.die (v % 2 ^ 32) else s.plainWrite p off v
  | .fab => if off = Reg.FAB_KNOT_CTRL then s.writeKnotCtrl v else s.plainWrite p off v
  | .plan => if off = Reg.PLAN_ESC then s.writePlanEsc p.die v else s.plainWrite p off v
  | .que => if off = Reg.QUE_ADMIN_CFG then s.adminCfg v else s.plainWrite p off v
  | .sync => if off = Reg.SYNC_HOST_CMD then s.writeSync v else s.plainWrite p off v
  | .req => s.writeReq p off v
  | .kvp => s.writeKvp p off v
  | .mem =>
    if off = Reg.MEM_INJECT then (if bits v 31 30 = 0 then s else s.memInject p.die (bits v 31 30)) else s.plainWrite p off v
  | .port => if off = Reg.PORT_CFG then s.writePort p v else s.plainWrite p off v
  | .arr => if off = Reg.ARR_CTRL then (if bitAt v 0 then s.retireArr p.die p.unit p.sub 4 else s) else s.plainWrite p off v
  | .cal =>
    if off = Reg.CAL_CTRL then
      (if bitAt v 0 && (s.calBent p.die p.unit).running.isNone then s.trigger p.die p.unit 2 else s)
    else s.plainWrite p off v
  | .dev | .pres | .mc | .bent | .shim | .ledg | .att | .grad | .wgt | .scrb | .opt => s.plainWrite p off v

/-- An 8-byte write of a 64-bit register, in one clock. The header's one, PAGE_ERR_ADDR, is read-only. -/
def State.write64 (s : State) (p : Page) (off v : Nat) : State :=
  if off < 0x40 then s
  else match p.blk with
  | .fab => if isShareOff off then s.shareWrite p.die off v else s
  | .que =>
    if off = Reg.QUE_DOORBELL then s.doorbell v
    else if !s.adminFree then s
    else if off = Reg.QUE_ADMIN_BASE then
      { s with que := { s.que with adminBase := put 0 s.que.adminBase s.adminSel (v / 0x10000 * 0x10000) } }
    else { s with que := { s.que with adminCtrl := put 0 s.que.adminCtrl s.adminSel (v / 128 * 128) } }
  | .kvp =>
    let k := s.pool p.die
    if k.idle then s.setPool p.die { k with base := v / 0x10000 * 0x10000 } else s
  | .mem => if off = Reg.MEM_INJECT_ADDR then s.wr64 p off (v / 64 * 64) else s
  | .dev | .pres | .mc | .sec | .log | .snap | .pwr | .thm | .plan | .sync | .req | .wgt | .scrb | .att | .grad | .port | .opt
  | .bent | .arr | .shim | .ledg | .cal => (s.plainWrite p off (v % 2 ^ 32)).plainWrite p (off + 4) (v / 2 ^ 32)

/-- A 64-bit register as it reads. -/
def State.word64 (s : State) (p : Page) (off : Nat) : Nat := (s.word p off).toNat + (s.word p (off + 4)).toNat * 2 ^ 32

/-- A 4-byte write of one register word: half of a 64-bit register keeps the other half. Half of QUE_DOORBELL rings nothing
(R343). -/
def State.write32 (s : State) (p : Page) (off v : Nat) : State :=
  if off < 0x40 then s.writeHead p off v
  else if p.blk = .que && (off = Reg.QUE_DOORBELL || off = Reg.QUE_DOORBELL + 4) then s
  else if is64 p.blk off then s.write64 p off (s.word64 p off / 2 ^ 32 * 2 ^ 32 + v % 2 ^ 32)
  else if 4 ≤ off && is64 p.blk (off - 4) then s.write64 p (off - 4) (s.word64 p (off - 4) % 2 ^ 32 + v % 2 ^ 32 * 2 ^ 32)
  else s.writeBlk p off v

/-- Unmask an entry: a pending message goes out (R63). -/
def State.unmask (s : State) (die entry : Nat) : State :=
  let s1 : State := { s with regs := put (msixReset 3) s.regs (msixKey die entry 3) (s.msixWord die entry 3 &&& ~~~(1 : W32)) }
  if s.msixMasked die entry && s.pba die entry then (s1.setPba die entry false).sendMsix die entry else s1

/-- A write of a word of the MSI-X table: only the mask bit of the control word is writable. -/
def State.writeMsix (s : State) (die entry w v : Nat) : State :=
  if !s.dieOk die then s
  else if w = 3 then
    (if bitAt v 0 then { s with regs := put (msixReset 3) s.regs (msixKey die entry 3) (s.msixWord die entry 3 ||| 1) }
     else s.unmask die entry)
  else { s with regs := put (msixReset w) s.regs (msixKey die entry w) (loW v) }

/-- A 4-byte write of a window. -/
def State.writeWord (s : State) (a v : Nat) : State :=
  match targetOf a with
  | .msix die e w => s.writeMsix die e w v
  | .reg p off => if !offDeclared p.blk off then s else s.pageWrite p (fun s => s.write32 p off v)
  | .pba _ _ | .reserved | .mem | .hole => s

/-- What a write of a window comes to (Table 02-6). -/
def State.writeResp (s : State) (a n : Nat) : HostResp :=
  if !aligned a n then .dropped
  else match targetOf a with
    | .reg p off =>
      if !s.pagePresent p || !offDeclared p.blk off then .ignored
      else if s.pageAsleep p then .dropped
      else if !s.ready && !earlyBlock p.blk then .ignored
      else .written
    | .msix die _ _ => if s.dieOk die then .written else .ignored
    | .pba _ _ | .reserved | .mem | .hole => .ignored

/-- A write of a register window (R42). -/
def State.writeReg (s : State) (a n v : Nat) : State :=
  if !aligned a n then s
  else if n = 4 then s.writeWord a (v % 2 ^ 32)
  else match targetOf a with
    | .reg p off =>
      if is64 p.blk off then s.pageWrite p (fun s => s.write64 p off (v % 2 ^ 64))
      else (s.writeWord a (v % 2 ^ 32)).writeWord (a + 4) (v / 2 ^ 32 % 2 ^ 32)
    | .msix _ _ _ | .pba _ _ | .reserved | .mem | .hole =>
      (s.writeWord a (v % 2 ^ 32)).writeWord (a + 4) (v / 2 ^ 32 % 2 ^ 32)

/-- A host write of T1. -/
def State.writeMem (s : State) (a : Nat) (bs : Bytes) : HostResp × State :=
  if bs.isEmpty || !s.populated a bs.length then (.storeFault, s)
  else if (s.wakeOf (dieOf a)).state = 4 then (.dropped, s.wakeDemand (dieOf a))
  else
    let s0 := if (s.wakeOf (dieOf a)).state = 3 then s.wakeDemand (dieOf a) else s
    (.written, s0.hostWrite a bs)

/-! ### The commands -/

/-- The host's answer. -/
def State.answer (s : State) (r : HostResp) : State := { s with out := { s.out with host := r } }

/-- Run a host access while the package is up: through a die whose link has lost all four modules nothing arrives (R41). -/
def State.onHost (s : State) (a : Nat) (f : State → State) : State :=
  if s.boot.phase < 2 || s.shut.isSome || !s.linkUp (dieOfAddr a) then s else f s

/-- A read of a register of the windows: an RC counter clears (R12). -/
def execRcCounterRead (addr : Nat) (x : HostLoad) (s : State) : Host.Outcome State Fault Refusal :=
  ok (s.onHost addr (fun s => let r := s.hostLoad addr x.size x.t0 x.sram; r.2.answer r.1))

def execRegisterWrite (addr size : Nat) (value : BitVec 64) (s : State) : Host.Outcome State Fault Refusal :=
  ok (s.onHost addr (fun s => (s.writeReg addr size value.toNat).answer (s.writeResp addr size)))

def execErrLogClear (p : Page) (s : State) : Host.Outcome State Fault Refusal := ok (s.hostPage p (fun s => s.clearErr p))

def execPageIrqStatWrite (p : Page) (value : W32) (s : State) : Host.Outcome State Fault Refusal :=
  ok (s.hostPage p (fun s => s.ackIrq p value.toNat))

def execMsixUnmask (die entry : Nat) (s : State) : Host.Outcome State Fault Refusal :=
  ok (s.onHost (windowBase + die * windowBytes) (fun s => if s.dieOk die && entry < 2048 then s.unmask die entry else s))

def execHostMemRead (addr size : Nat) (s : State) : Host.Outcome State Fault Refusal :=
  ok (s.onHost addr (fun s => let r := s.readMem addr size; r.2.answer r.1))

def execHostMemWrite (addr : Nat) (data : Bytes) (s : State) : Host.Outcome State Fault Refusal :=
  ok (s.onHost addr (fun s => let r := s.writeMem addr data; r.2.answer r.1))

/-! ### The memory-device mailbox (Table 02-1, R431) -/

/-- Append a reply: kind 0 to 3 for the four commands of Table 02-1 in its order, 4 for Unsupported. -/
def State.mboxReply (s : State) (die kind : Nat) (values : List Nat) : State :=
  { s with out := { s.out with mbox := s.out.mbox ++ [⟨die, kind, values⟩] } }

def State.onMbox (s : State) (die : Nat) (f : State → State) : State :=
  s.onHost (windowBase + die * windowBytes) (fun s => if s.dieOk die then f s else s)

/-- The three commands whose answers the spec does not describe: what they tell is free. -/
def State.freeReply (s : State) (die kind : Nat) : State := s.onMbox die (fun s => s.spend.mboxReply die kind [s.draw])

def execIdentifyMemoryDevice (die : Nat) (s : State) : Host.Outcome State Fault Refusal := ok (s.freeReply die 0)
def execGetPartitionInfo (die : Nat) (s : State) : Host.Outcome State Fault Refusal := ok (s.freeReply die 1)
def execGetHealthInfo (die : Nat) (s : State) : Host.Outcome State Fault Refusal := ok (s.freeReply die 2)

/-- Get Poison List returns the die's list, as T1 addresses of codewords. -/
def execGetPoisonList (die : Nat) (s : State) : Host.Outcome State Fault Refusal :=
  ok (s.onMbox die (fun s => s.mboxReply die 3 ((look [] s.mem.poison die).map (fun c => 64 * c))))

def execMailboxUnsupported (die op : Nat) (s : State) : Host.Outcome State Fault Refusal :=
  ok (s.onMbox die (fun s => s.mboxReply die 4 [op]))

end Sys2Proof.Machine
end

