-- ==== Sys2Proof/Machine/Monitor.lean ====
section
/-!
DEFINITION. The Opile monitor (R468, R502 to R504, Table 18-1): its commands and the replies they print.
-/

namespace Sys2Proof.Machine

/-- Does a monitor command wait for a snapshot? Input that arrives meanwhile is discarded (R502). -/
def monWaits (w : SnapFor) : Bool :=
  match w with
  | .monSnap | .monAudit | .monResume => true
  | .software | .periodic | .audit | .resume => false

def State.monBusy (s : State) : Bool := s.snap.waiters.any monWaits || s.snap.queued.any monWaits

/-- Run a command once the firmware runs; each adds 1 to LOG_MON_CMD_COUNT (R504). -/
def State.onMon (s : State) (f : State → State) : State :=
  if !s.fwRuns || s.monBusy then s else f (s.bump logPage Reg.LOG_MON_CMD_COUNT)

/-- Are the frame dies powered? -/
def State.powered (s : State) : Bool := 2 ≤ s.boot.phase && s.shut.isNone

/-- Code of an access of `n` bytes at `a`: out of range or malformed, or a unit that is not up or asleep (R503). -/
def State.monCode (s : State) (a n : Nat) (write : Bool) : Nat :=
  if !aligned a n then Err.length
  else match targetOf a with
    | .hole => Err.length
    | .mem => if !s.populated a n then Err.length
        else if !s.powered || (s.wakeOf (dieOf a)).state == 4 then Err.notReady else 0
    | .reg p _ =>
      if !s.powered && !earlyBlock p.blk then Err.notReady
      else if s.pagePresent p && s.pageAsleep p then Err.notReady
      else if write && (!s.powered || (s.pagePresent p && !s.ready && !earlyBlock p.blk)) then Err.notReady
      else 0
    | .msix _ _ _ | .pba _ _ | .reserved => if s.powered then 0 else Err.notReady

/-- The page whose PAGE_OWNER tags the output about an address (R53). -/
def pageAt (a : Nat) : Option Page :=
  match targetOf a with
  | .reg p _ => some p
  | .msix _ _ _ | .pba _ _ | .reserved | .mem | .hole => none

/-- The reply to a read. What it prints for data that came back poisoned is not stated. -/
def State.readReply (s : State) (p : Option Page) (r : HostResp) : State :=
  match r with
  | .data v => s.monReplyOn p [v] 0
  | .none | .poisoned | .loadFault | .storeFault | .written | .ignored | .dropped => s.spend.monReplyOn p [] (s.draw % 17)

def State.peek (s : State) (a n : Nat) : State :=
  let r := s.hostRead a n
  let code := s.monCode a n false
  if code ≠ 0 then r.2.monReplyOn (pageAt a) [] code else r.2.readReply (pageAt a) r.1

def execMonPeek (addr width : Nat) (s : State) : Host.Outcome State Fault Refusal := ok (s.onMon (fun s => s.peek addr width))

/-- An ordinary write through the windows or to T1. -/
def State.hostStore (s : State) (a n v : Nat) : State :=
  match targetOf a with
  | .mem => (s.writeMem a (leBytes n v)).2
  | .hole => s
  | .msix _ _ _ | .pba _ _ | .reg _ _ | .reserved => s.writeReg a n v

def State.poke (s : State) (a n v : Nat) : State :=
  let code := s.monCode a n true
  if code = Err.length then s.monReplyOn (pageAt a) [] code else (s.hostStore a n v).monReplyOn (pageAt a) [] code

def execMonPoke (addr width : Nat) (value : BitVec 64) (s : State) : Host.Outcome State Fault Refusal :=
  ok (s.onMon (fun s => s.poke addr width value.toNat))

/-- Words from an address on; one that does not come back as data prints a free value. -/
def State.readWords (s : State) (a : Nat) : Nat → List Nat × State
  | 0 => ([], s)
  | n + 1 =>
    let r := s.hostRead a 4
    let x := match r.1 with
      | .data v => (v, r.2)
      | .none | .poisoned | .loadFault | .storeFault | .written | .ignored | .dropped => (r.2.draw % 2 ^ 32, r.2.spend)
    let q := x.2.readWords (a + 4) n
    (x.1 :: q.1, q.2)

def State.dump (s : State) (a : Nat) : State :=
  let code := if a % 4096 = 0 then s.monCode a 4 false else Err.length
  if code ≠ 0 then s.monReplyOn (pageAt a) [] code
  else let r := s.readWords a 1024; r.2.monReplyOn (pageAt a) r.1 0

def execMonDump (addr : Nat) (s : State) : Host.Outcome State Fault Refusal := ok (s.onMon (fun s => s.dump addr))

/-- `snap`: a busy snapshot makes the write ignored; the reply then waits for that one. -/
def State.monSnap (s : State) (clear : Bool) : State :=
  if !s.ready then s.monReply [] Err.notReady
  else if s.snap.busy then (s.bump snapPage Reg.SNAP_REFUSED_COUNT).onSnap (fun x => { x with waiters := x.waiters ++ [.monSnap] })
  else s.startSnap clear [.monSnap]

def execMonSnap (clear : Bool) (s : State) : Host.Outcome State Fault Refusal := ok (s.onMon (fun s => s.monSnap clear))

/-- Registers of one die's THM page. -/
def State.temps (s : State) (die : Nat) : List Nat :=
  let p := thmPage die
  [(s.word p Reg.THM_MAX).toNat, (s.word p Reg.THM_DEMAND).toNat, (s.word p Reg.THM_COOLANT).toNat] ++
    (if s.tripLatched then [s.tripWord.toNat] else [])

def State.monTemp (s : State) (die : Option Nat) : State :=
  match die with
  | none => s.monReply ((upFrom 0 s.dies).flatMap (fun d => s.temps d)) 0
  | some d => if s.dieOk d then s.monReplyOn (some (thmPage d)) (s.temps d) 0 else s.monReply [] Err.length

def execMonTemp (die : Option Nat) (s : State) : Host.Outcome State Fault Refusal := ok (s.onMon (fun s => s.monTemp die))

/-- `log`: the newest records of the ring, oldest first, each as its 64 bytes. -/
def State.monLog (s : State) (n : Nat) : State :=
  if n = 0 || 1024 < n then s.monReply [] Err.length
  else s.monReply ((s.log.ring.drop (s.log.ring.length - n)).map (fun r => leNat r.bytes)) 0

def execMonLog (count : Nat) (s : State) : Host.Outcome State Fault Refusal := ok (s.onMon (fun s => s.monLog count))

def State.monKnots (s : State) : State :=
  if !s.powered then s.monReply [] Err.notReady
  else s.monReply (s.fab.knots.version :: (upFrom 0 169).map (fun w => (wordAt (s.fab.knots.bytes s.dies) w).toNat)) 0

def execMonKnots (s : State) : Host.Outcome State Fault Refusal := ok (s.onMon (fun s => s.monKnots))

/-- `cal`: the figure registers of a bent's four arrays. -/
def State.monCal (s : State) (die bent : Nat) : State :=
  if !s.dieOk die || 128 ≤ bent then s.monReply [] Err.length
  else if !s.ready || !s.powered || (s.wakeOf die).state == 4 then s.monReply [] Err.notReady
  else (s.wakeDemand die).monReplyOn (some (calPage die bent)) ((upFrom 0 16).map (fun i => (s.word (calPage die bent) (Reg.CAL_RESID + 4 * i)).toNat)) 0

def execMonCal (die bent : Nat) (s : State) : Host.Outcome State Fault Refusal := ok (s.onMon (fun s => s.monCal die bent))

/-- Powers and error ratio of one lane of a port, read through OPT_LANE_SEL. -/
def State.laneRead (s : State) (q lane : Nat) : List Nat × State :=
  let p := opticPage (q / 2)
  let s1 := s.pageWrite p (fun s => s.write32 p Reg.OPT_LANE_SEL (8 * (q % 2) + lane))
  ([(s1.word p Reg.OPT_LANE_DATA).toNat, (s1.word p Reg.OPT_LANE_BER).toNat], s1)

/-- PORT_STATUS, then the lanes in ascending order. -/
def State.lanesRead (s : State) (q : Nat) : List Nat → List Nat × State
  | [] => ([], s)
  | l :: ls =>
    let r := s.laneRead q l
    let t := r.2.lanesRead q ls
    (r.1 ++ t.1, t.2)

def State.linkRead (s : State) : List Nat → List Nat × State
  | [] => ([], s)
  | q :: qs =>
    let r := s.lanesRead q (upFrom 0 8)
    let t := r.2.linkRead qs
    ((s.word (portPage q) Reg.PORT_STATUS).toNat :: r.1 ++ t.1, t.2)

def State.monLink (s : State) (port : Option Nat) : State :=
  let qs := match port with
    | none => (upFrom 0 (8 * s.dies)).filter (fun q => (s.wakeOf (q / 8)).state != 4)
    | some q => [q]
  if qs.any (fun q => !s.portOk q) then s.monReply [] Err.length
  else if !s.ready || !s.powered || qs.any (fun q => (s.wakeOf (q / 8)).state == 4) then s.monReply [] Err.notReady
  else let r := s.linkRead qs; r.2.monReplyOn (port.map portPage) r.1 0

def execMonLink (port : Option Nat) (s : State) : Host.Outcome State Fault Refusal := ok (s.onMon (fun s => s.monLink port))

/-- `census`: census registers, entries in each state of Table 12-2, tokens and LOG_CONS. -/
def State.monCensus (s : State) : State :=
  if !s.ready || !s.powered then s.monReply [] Err.notReady
  else s.monReplyOn (some reqPage) ([s.req.free, s.req.live, s.req.ended, s.req.free] ++
    (upFrom 1 10).map (fun st => s.countReq (fun x => x.state == st)) ++ [s.req.committed, s.req.delivered, s.consWord.toNat]) 0

def execMonCensus (s : State) : Host.Outcome State Fault Refusal := ok (s.onMon (fun s => s.monCensus))

def State.monWait (s : State) (w : SnapFor) : State :=
  if !s.ready || !s.powered then s.monReply [] Err.notReady else s.auditSnap w

def execMonAudit (s : State) : Host.Outcome State Fault Refusal := ok (s.onMon (fun s => s.monWait .monAudit))
def execMonResume (s : State) : Host.Outcome State Fault Refusal := ok (s.onMon (fun s => s.monWait .monResume))

/-- The line's rates (R468). -/
def State.monBaud (s : State) (rate : Nat) : State :=
  if [115200, 230400, 460800, 921600, 1500000, 3000000].contains rate then
    (s.monReply [] 0).onSnap (fun x => { x with baud := rate })
  else s.monReply [] Err.length

def execMonBaud (rate : Nat) (s : State) : Host.Outcome State Fault Refusal := ok (s.onMon (fun s => s.monBaud rate))

/-- `id`: module_id as a number, then the ROM, firmware, configuration and host image versions. -/
def execMonId (s : State) : Host.Outcome State Fault Refusal :=
  ok (s.onMon (fun s => s.monReply ([leNat s.ident.moduleId, s.ident.romVersion] ++ s.ident.versions) 0))

/-- Every record that waits is written. -/
def State.drainLog (s : State) : Nat → State
  | 0 => s
  | n + 1 => s.writeRecordLog.drainLog n

/-- `restart confirm`: flash writes in progress complete, then the package starts again at step 1 (R498, Table 18-4). -/
def State.restart (s : State) : State :=
  let s0 := s.cutUpdate true
  let s1 := match s.shut with
    | some x => s0.recordTrip x.record
    | none => s0
  (s1.drainLog s1.log.buffer.length).powerCycle.onPwr (fun p => { p with voltage := s.pwr.voltage })

def execMonRestart (confirm : Bool) (s : State) : Host.Outcome State Fault Refusal :=
  ok (s.onMon (fun s => if confirm then (s.monReply [] 0).restart else s.monReply [] Err.length))

/-- A break returns the line to 115,200 baud (R468). -/
def execMonitorBreak (s : State) : Host.Outcome State Fault Refusal :=
  ok (s.whenOn (fun s => s.onSnap (fun x => { x with baud := 115200 })))

end Sys2Proof.Machine
end

