-- ==== Sys2Proof/Machine/Prefill.lean ====
section
/-!
DEFINITION. Prefill attention on arrays (R211 to R216), and the commands of the weight feed, the plane loads, the shim units'
input and the vector unit that carry it. No word of a plan says that a load or a pass belongs to it, so the commands' operands
do (log entry 32).
-/

namespace Sys2Proof.Machine

/-! ### The layer and request of an array prefill (Table 07-1) -/

/-- What an array prefill of a layer works on: the attention-table entry, the group, the one request of the roster, and its
entry. -/
structure PreJob where
  a : AttEnt
  g : KvGroup
  r : Rostered
  x : ReqEnt
  deriving DecidableEq, Repr

/-- The job of a layer: the layer is marked, and the roster is one prefilling request (R211). -/
def State.preJob (s : State) (l : Live) (layer : Nat) : Option PreJob :=
  match l.p.img.attOf layer, l.r.roster with
  | some a, [r] => match s.reqEnt r.idx with
    | some x => if a.placement = 1 && !r.decode then some ⟨a, l.x.kv.group a.group, r, x⟩ else none
    | none => none
  | _, _ => none

/-- Positions that the request has once the chunk is written. -/
def PreJob.keys (j : PreJob) : Nat := j.x.length + j.r.n

/-! ### Key tiles (R212 to R214) -/

/-- Nibble of a tile cell: an element in half units with its group scale, re-rounded to E2M1 at the column scale (R213). -/
def tileNib (el : Int) (sg S : FVal) : Nat :=
  match sg, S with
  | .fin n m e, .fin _ sm se =>
    if sm = 0 then 0
    else
      let d := e - se
      let c := e2m1Code (el.natAbs * m * 2 ^ d.toNat) (sm * 2 ^ (-d).toNat)
      if c = 0 then 0 else if xor (el < 0) n then c + 8 else c
  | _, _ => 0

/-- Is the magnitude of one scale below that of another? -/
def scaleLt (a b : FVal) : Bool :=
  match a, b with
  | .fin _ m e, .fin _ n f => m * 2 ^ (e - f).toNat < n * 2 ^ (f - e).toNat
  | _, _ => false

/-- The largest of the group scales that feed a column. -/
def topScale (l : List FVal) : FVal := l.foldl (fun m v => if scaleLt m v then v else m) (.fin false 0 0)

def scaleCode (v : FVal) : Nat :=
  match v with
  | .fin _ m e => (fp16.round false m e false).1
  | .inf _ | .nan => 0

/-- The key or value row at a place of the tile; none for a place without a key. -/
abbrev TileRows := List (Option KvVec)

def tileRow (rows : TileRows) (c : Nat) : KvVec := (nth none rows c).getD ⟨[], [], 0⟩
def KvVec.at (v : KvVec) (i : Nat) : Int := nth 0 v.el i
def KvVec.scaleAt (v : KvVec) (i : Nat) : FVal := nth (.fin false 0 0) v.sc (i / 16)

/-- Column scales: of a K plane, column c is fed by the groups of key c; of a V plane, by the group of dimension c of every
key. -/
def tileScales (value : Bool) (rows : TileRows) : List FVal :=
  (upFrom 0 512).map (fun c =>
    if value then topScale (rows.map (fun r => match r with
      | some v => v.scaleAt c
      | none => .fin false 0 0))
    else topScale (tileRow rows c).sc)

/-- Cell (row, column) of a tile. -/
def tileCell (value : Bool) (rows : TileRows) (sc : List FVal) (r c : Nat) : Nat :=
  let v := tileRow rows (if value then r else c)
  let i := if value then c else r
  tileNib (v.at i) (v.scaleAt i) (nth (.fin false 0 0) sc c)

/-- The plane of a key tile; its residual list is empty. -/
def tilePlane (tag : Nat) (value : Bool) (rows : TileRows) (fl : Nat) : Plane where
  cells := planeCells (fullCell (fun r c => e2m1Cell (tileCell value rows (tileScales value rows) r c)))
  tag := tag
  scales := ((tileScales value rows).zipIdx.map (fun x => (x.2, scaleCode x.1))).filter (fun x => x.2 != 0)
  resid := []
  flags := Flag.carried fl &&& 14

/-- Read the rows of a tile, `n` places from position `p` on: a place holds a key when the request keeps its entry. -/
def State.readTile (s : State) (W : Nat) (j : PreJob) (rank head : Nat) (value : Bool) : Nat → Nat → (TileRows × Nat) × State
  | 0, _ => (([], 0), s)
  | n + 1, p =>
    if j.keys ≤ p || p < j.g.lo W j.x.length then
      let r := s.readTile W j rank head value n (p + 1)
      ((none :: r.1.1, r.1.2), r.2)
    else
      let d := s.dirEnt j.x (j.g.entryOf W (p / j.g.tokens))
      let e := s.unitRead (s.frameAddr d.die d.frame + j.g.entryOff p rank head) j.g.entryBytes
      let k := keyOf j.g.dim p (e.1.data.map (fun b => b.toNat))
      let r := e.2.readTile W j rank head value n (p + 1)
      ((some (if value then k.v else k.k) :: r.1.1, e.1.flags ||| r.1.2), r.2)

/-- Has the KV writer written every entry of the chunk that the tile holds (R214)? -/
def PreJob.written (j : PreJob) (t : KvTile) : Bool :=
  (upFrom (max j.x.length (512 * t.tile)) (min j.keys (512 * t.tile + 512) - max j.x.length (512 * t.tile))).all
    (fun p => j.r.written.contains (t.layer, p))

/-- The load of a tile completes, once the entries it holds are written; that of a tile beyond the request's keys writes no cell
(R214). -/
def State.tileComplete (s : State) (die bent a : Nat) (r : LoadReq) (t : KvTile) : State :=
  match s.live r.ctx with
  | none => s
  | some l => match s.preJob l t.layer with
    | none => s
    | some j =>
      if j.keys ≤ 512 * t.tile then
        let A := s.arr die bent a
        (s.setArr die bent a { A with
          staged := 2, rows := 576, bankState := 2, loading := none, poisoned := r.poison }).beginNext die bent a A.waiting
      else if !j.written t then s
      else
        let rd := s.readTile l.x.kv.window j (l.p.img.rankOf j.a) t.head t.value 512 (512 * t.tile)
        let A := rd.2.arr die bent a
        (rd.2.setArr die bent a { A.setPlane (1 - A.live) (tilePlane r.tag t.value rd.1.1 rd.1.2) with
          staged := 2, rows := 576, bankState := 2, loading := none,
          poisoned := r.poison || Flag.isPoison rd.1.2 }).beginNext die bent a A.waiting

/-- PLANE_LOAD_COMPLETE; `fmt` is what the tensor's elements are, which the descriptor or plan names (R70) in no field that the spec
gives (log entry 24). -/
def execPlaneLoadComplete (die bent : Nat) (x : LoadEnd) (s : State) : Host.Outcome State Fault Refusal :=
  ok (s.whenUp (fun s => match (s.arr die bent x.arr).loading.bind (fun r => r.kv.map (fun k => (r, k.1))) with
    | some r => s.tileComplete die bent x.arr r.1 r.2
    | none => s.loadComplete die bent x.arr x.fmt))

/-- The load of a key tile. -/
def tileReq (c tag idx : Nat) (t : KvTile) : LoadReq := ⟨tag, 0, 0, none, 0, false, c, none, some (t, idx)⟩

/-- A tile wholly beyond the request's keys: its load completes at once and writes no cell (R214). -/
def State.emptyTile (s : State) (die bent a tag : Nat) : State :=
  let A := s.arr die bent a
  let n := 1 - A.live
  s.setArr die bent a { A.setPlane n { A.plane n with tag := tag } with
    staged := 2, rows := 576, poisoned := false, bankState := 2 }

/-- A feed word loads a key tile. -/
def State.feedTile (s : State) (l : Live) (j : PreJob) (die w : Nat) (t : KvTile) : State :=
  let a := bits w 47 46
  let bent := bits w 45 39
  let A := s.arr die bent a
  if j.keys ≤ 512 * t.tile && !(A.loading.isSome || A.draining) then s.emptyTile die bent a (bits w 63 48)
  else s.startLoad die bent a (tileReq l.c (bits w 63 48) j.r.idx t)

/-- WEIGHT_FEED_LOAD: a plane of the generation, or a key tile of a layer that prefills on arrays. -/
def execWeightFeedLoad (ctx die slot : Nat) (kv : Option KvTile) (s : State) : Host.Outcome State Fault Refusal :=
  ok (s.whenUp (fun s => match s.live ctx with
    | none => s
    | some l => match l.wordNow 6 die 0 0 slot with
      | none => s
      | some w => match kv.bind (fun t => (s.preJob l t.layer).map (fun j => (t, j))) with
        | some x => s.feedTile l x.2 die w x.1
        | none => s.feedWord l die w))

/-! ### Scores (R215) -/

def SoftRow.start : SoftRow := ⟨none, 0, 0⟩
def Arr.softRow (x : Arr) (row : Nat) : SoftRow := look SoftRow.start x.soft row

/-- Columns of a tile that hold a key which the row at position `p` attends (R202). -/
def PreJob.columns (j : PreJob) (W tile p : Nat) : List Nat :=
  (upFrom 0 512).filter (fun c => j.g.lo W p ≤ 512 * tile + c && 512 * tile + c ≤ p && 512 * tile + c < j.keys)

/-- The represented value of a quantised element. -/
def Seg.value (g : Seg) (v : Int) : Nat := (fin32 (v < 0) (v.natAbs * g.sm) g.se false).bits

/-- One tile for one query row: the vector that drives the V array, and the row's new figures. -/
def softTile (scale : Nat) (cols : List Nat) (vals : List Nat) (r : SoftRow) : Seg × SoftRow :=
  let sc := cols.map (fun c => (c, (fMul scale (nth 0 vals c)).bits))
  match sc with
  | [] => (quantSeg .int4 1 0 (List.replicate 512 0), { r with c := 0x3F800000 })
  | k :: _ =>
    let mNew := sc.foldl (fun m x => (fMax m x.2).bits) (r.m.getD k.2)
    let c := match r.m with
      | some m => attE (fSub m mNew).bits
      | none => 0
    let es := (upFrom 0 512).map (fun i => match sc.find? (fun x => x.1 == i) with
      | some x => attE (fSub x.2 mNew).bits
      | none => 0)
    let g := quantSeg .int4 1 0 es
    (g, ⟨some mNew, g.q.foldl (fun l v => (fAdd l (g.value v)).bits) (fMul r.l c).bits, c⟩)

/-- The shim unit of the K array makes the input of the V array's pass. -/
def State.quantiseScores (s : State) (l : Live) (die bent a slot w : Nat) (i : ScoreIn) : State :=
  match s.preJob l i.layer with
  | none => s
  | some j =>
    let K := s.arr die bent i.arr
    let A := s.arr die bent a
    if A.passes.any (fun p => p.stage == .quantised && p.slot == (slot : Int)) then s
    else
      let row := look ⟨[], 0⟩ K.scores i.row
      let cols := j.columns l.x.kv.window i.tile (j.x.length + i.pos)
      let r := softTile j.a.scale cols row.vals (if i.tile = 0 then SoftRow.start else K.softRow i.row)
      let p := newPass A.nextPass w slot l.c r.1 row.flags
      (s.setArr die bent a { A with passes := A.passes ++ [p], nextPass := A.nextPass + 1 }).onArr die bent i.arr
        (fun x => { x with soft := put SoftRow.start x.soft i.row r.2 })

/-- The array word that the segment of a step slot's pass is quantised for, with the fabric slots of the beat before, as far as no
snapshot holds the bent back. -/
def State.segWord (s : State) (die bent a slot : Nat) : Option (Live × Nat × List Nat) :=
  match s.owner die bent with
  | none => none
  | some c => match s.live c with
    | none => none
    | some l => match l.beatBefore slot, l.wordAt 1 die bent a slot with
      | some ns, some w => if ns.any (fun n => s.cutHolds (cutPages die bent) n) then none else some (l, w, ns)
      | _, _ => none

/-- The elements of a segment in its flits: 512 FP32 values, or 512 BF16 values widened (R141). -/
def segVals (half : Bool) (fs : List Flit) : List Nat :=
  let ws := (fs.flatMap Flit.words).map (fun w => w.toNat)
  let vs := if half then ws.flatMap (fun w => [ofBf16 (w % 65536), ofBf16 (w / 65536)]) else ws
  (upFrom 0 512).map (fun i => nth 0 vs i)

/-- SEGMENT_QUANTISE: a segment that came on the fabric in the slots of the beat before that `take` names (bit i: slot i of the beat),
or the scores of a K array. -/
def execSegmentQuantise (die bent arr slot take : Nat) (half : Bool) (score : Option ScoreIn) (s : State) :
    Host.Outcome State Fault Refusal :=
  ok (s.whenUp (fun s => match s.segWord die bent arr slot with
    | some (l, w, ns) =>
      if bits w 63 62 < 2 then
        match score with
        | some i => s.quantiseScores l die bent arr slot w i
        | none =>
          let mine := (ns.zipIdx.filter (fun n => bitAt take n.2)).map (fun n => n.1)
          if mine.all (fun n => s.routerPast die bent (n + 1)) then
            let fs := s.takeFlits die bent 4 mine
            s.quantise die bent arr slot l.c w (segVals half fs) (fabIn fs []).marks
          else s
      else s
    | none => s))

/-! ### The accumulator update (R215) -/

/-- acc · c + (V-pass result), and after the last tile acc / l. -/
def vecSoftOut (q : SoftRow) (last : Bool) (x : VIn) (b : Bent) (r : VRec) : VOut :=
  r.result (List.zipWith (fun d a =>
    let v := fFma d q.c a
    if last then (fDiv v.bits q.l).after v else v) (b.vals r.d 4 r.count) (r.valsA b x))

/-- m and lse of a finished row, for the statistics buffer (R203). -/
def softStats (q : SoftRow) : Bytes :=
  match q.m with
  | some m => statBytes [m] [(fAdd m (attL q.l)).bits]
  | none => statBytes [inf32 true] [inf32 true]

/-- The statistics of a finished row go to the layer's buffer, when the plan names one, with the flags of the row they were made
from (R97). They leave the bent through its die's I/O ring (R26). -/
def State.softWrite (s : State) (l : Live) (die layer i fl : Nat) (q : SoftRow) : State :=
  match l.p.img.attOf layer with
  | some a =>
    if a.statsBinding = 0xFF then s
    else s.unitWrite ((l.membind a.statsBinding).1 + a.statsOffset + 8 * i) (softStats q) (s.stepTag l.c) (producer die 5 0) fl
  | none => s

/-- VEC_ATT_RESCALE: the record's own factor, or the factor of a query row. -/
def execVecAttRescale (die bent slot : Nat) (sram : SramRead) (soft : Option SoftIn) (s : State) : Host.Outcome State Fault Refusal :=
  ok (s.whenUp (fun s => match soft with
    | none => s.runVec die bent slot sram 0x0D (unlessEmpty vecRescaleOut) false
    | some i =>
      let A := s.arr die bent i.arr
      let q := A.softRow i.row
      let s1 := s.runVec die bent slot sram 0x0D (unlessEmpty (vecSoftOut q i.last.isSome)) false
      match i.last, s.bentWord 3 die bent 0 slot with
      | some n, some (l, w) =>
        if s.vecRuns die bent l slot w 0x0D then s1.softWrite l die i.layer n ((look ⟨[], 0⟩ A.scores i.row).flags &&& 14) q
        else s1
      | _, _ => s1))

end Sys2Proof.Machine
end

