-- ==== Sys2Proof/Machine/Dispatch.lean ====
section
/-!
DEFINITION. The dispatch: one arm per constructor of Instr, each one call of that command's meaning.
-/

namespace Sys2Proof.Machine

/-- The effect of a command on everything but the queue. -/
def exec (i : Instr) (s : State) : Host.Outcome State Fault Refusal :=
  match i with
  | .nop q ix => Sys2Proof.Machine.execNop q ix s
  | .syncAdd q ix => Sys2Proof.Machine.execSyncAdd q ix s
  | .syncSet q ix => Sys2Proof.Machine.execSyncSet q ix s
  | .syncWait q seen => Sys2Proof.Machine.execSyncWait q seen s
  | .syncCreate q ix => Sys2Proof.Machine.execSyncCreate q ix s
  | .syncDestroy q ix => Sys2Proof.Machine.execSyncDestroy q ix s
  | .queueCreate q ix => Sys2Proof.Machine.execQueueCreate q ix s
  | .queueDestroy q ix => Sys2Proof.Machine.execQueueDestroy q ix s
  | .contextCreate q ix => Sys2Proof.Machine.execContextCreate q ix s
  | .contextDestroy q ix => Sys2Proof.Machine.execContextDestroy q ix s
  | .bentAssign q ix => Sys2Proof.Machine.execBentAssign q ix s
  | .bentClear q ix => Sys2Proof.Machine.execBentClear q ix s
  | .planLoad q ix => Sys2Proof.Machine.execPlanLoad q ix s
  | .planUnload q ix => Sys2Proof.Machine.execPlanUnload q ix s
  | .planRun q ix => Sys2Proof.Machine.execPlanRun q ix s
  | .planStop q ix => Sys2Proof.Machine.execPlanStop q ix s
  | .weightLoad q ix => Sys2Proof.Machine.execWeightLoad q ix s
  | .copy q ix => Sys2Proof.Machine.execCopy q ix s
  | .reqAdmit q ix => Sys2Proof.Machine.execReqAdmit q ix s
  | .reqCancel q ix => Sys2Proof.Machine.execReqCancel q ix s
  | .reqPause q ix => Sys2Proof.Machine.execReqPause q ix s
  | .reqResume q ix => Sys2Proof.Machine.execReqResume q ix s
  | .reqSet q ix => Sys2Proof.Machine.execReqSet q ix s
  | .reqDraft q ix => Sys2Proof.Machine.execReqDraft q ix s
  | .reqRelease q ix => Sys2Proof.Machine.execReqRelease q ix s
  | .reqQuery q ix => Sys2Proof.Machine.execReqQuery q ix s
  | .wgtKeyExport q ix => Sys2Proof.Machine.execWgtKeyExport q ix s
  | .wgtRegister q ix => Sys2Proof.Machine.execWgtRegister q ix s
  | .wgtSeal q ix => Sys2Proof.Machine.execWgtSeal q ix s
  | .wgtVerify q ix => Sys2Proof.Machine.execWgtVerify q ix s
  | .tpChannelCreate q ix => Sys2Proof.Machine.execTpChannelCreate q ix s
  | .tpChannelDestroy q ix => Sys2Proof.Machine.execTpChannelDestroy q ix s
  | .tpWrite q ix => Sys2Proof.Machine.execTpWrite q ix s
  | .tpRead q ix => Sys2Proof.Machine.execTpRead q ix s
  | .queDoorbell value => Sys2Proof.Machine.execQueDoorbell value s
  | .descriptorConsume q t sram => Sys2Proof.Machine.execDescriptorConsume q t sram s
  | .descriptorComplete q ix t => Sys2Proof.Machine.execDescriptorComplete q ix t s
  | .syncWaitDeadline q t => Sys2Proof.Machine.execSyncWaitDeadline q t s
  | .errLogClear p => Sys2Proof.Machine.execErrLogClear p s
  | .pageIrqStatWrite p value => Sys2Proof.Machine.execPageIrqStatWrite p value s
  | .msixUnmask die entry => Sys2Proof.Machine.execMsixUnmask die entry s
  | .rcCounterRead addr x => Sys2Proof.Machine.execRcCounterRead addr x s
  | .reqEntryRead => Sys2Proof.Machine.execReqEntryRead s
  | .registerWrite addr size value => Sys2Proof.Machine.execRegisterWrite addr size value s
  | .ledgerHostWrite die bent addr value => Sys2Proof.Machine.execLedgerHostWrite die bent addr value s
  | .arrRetire die bent arr => Sys2Proof.Machine.execArrRetire die bent arr s
  | .recal die bent => Sys2Proof.Machine.execRecal die bent s
  | .kvpCensus die => Sys2Proof.Machine.execKvpCensus die s
  | .reqCensus => Sys2Proof.Machine.execReqCensus s
  | .portCensus port => Sys2Proof.Machine.execPortCensus port s
  | .portRetrain port => Sys2Proof.Machine.execPortRetrain port s
  | .portClearRetired port => Sys2Proof.Machine.execPortClearRetired port s
  | .knotReissue => Sys2Proof.Machine.execKnotReissue s
  | .knotCancelReissue => Sys2Proof.Machine.execKnotCancelReissue s
  | .shareWrite die off value => Sys2Proof.Machine.execShareWrite die off value s
  | .planEscAdd die => Sys2Proof.Machine.execPlanEscAdd die s
  | .planEscRemove die => Sys2Proof.Machine.execPlanEscRemove die s
  | .adminQueueEnable msix => Sys2Proof.Machine.execAdminQueueEnable msix s
  | .adminQueueDisable => Sys2Proof.Machine.execAdminQueueDisable s
  | .syncHostRead => Sys2Proof.Machine.execSyncHostRead s
  | .syncHostAdd => Sys2Proof.Machine.execSyncHostAdd s
  | .syncHostSet => Sys2Proof.Machine.execSyncHostSet s
  | .pwrWake die => Sys2Proof.Machine.execPwrWake die s
  | .pwrWakeLatWrite die value => Sys2Proof.Machine.execPwrWakeLatWrite die value s
  | .thmTripAck die value => Sys2Proof.Machine.execThmTripAck die value s
  | .memInject die kind => Sys2Proof.Machine.execMemInject die kind s
  | .secUpdate type => Sys2Proof.Machine.execSecUpdate type s
  | .secAttest => Sys2Proof.Machine.execSecAttest s
  | .snapRequest clear => Sys2Proof.Machine.execSnapRequest clear s
  | .consAudit => Sys2Proof.Machine.execConsAudit s
  | .consResume => Sys2Proof.Machine.execConsResume s
  | .hostMemRead addr size => Sys2Proof.Machine.execHostMemRead addr size s
  | .hostMemWrite addr data => Sys2Proof.Machine.execHostMemWrite addr data s
  | .identifyMemoryDevice die => Sys2Proof.Machine.execIdentifyMemoryDevice die s
  | .getPartitionInfo die => Sys2Proof.Machine.execGetPartitionInfo die s
  | .getHealthInfo die => Sys2Proof.Machine.execGetHealthInfo die s
  | .getPoisonList die => Sys2Proof.Machine.execGetPoisonList die s
  | .mailboxUnsupported die op => Sys2Proof.Machine.execMailboxUnsupported die op s
  | .monPeek addr width => Sys2Proof.Machine.execMonPeek addr width s
  | .monPoke addr width value => Sys2Proof.Machine.execMonPoke addr width value s
  | .monDump addr => Sys2Proof.Machine.execMonDump addr s
  | .monSnap clear => Sys2Proof.Machine.execMonSnap clear s
  | .monTemp die => Sys2Proof.Machine.execMonTemp die s
  | .monLog count => Sys2Proof.Machine.execMonLog count s
  | .monKnots => Sys2Proof.Machine.execMonKnots s
  | .monCal die bent => Sys2Proof.Machine.execMonCal die bent s
  | .monLink port => Sys2Proof.Machine.execMonLink port s
  | .monCensus => Sys2Proof.Machine.execMonCensus s
  | .monAudit => Sys2Proof.Machine.execMonAudit s
  | .monResume => Sys2Proof.Machine.execMonResume s
  | .monBaud rate => Sys2Proof.Machine.execMonBaud rate s
  | .monId => Sys2Proof.Machine.execMonId s
  | .monRestart confirm => Sys2Proof.Machine.execMonRestart confirm s
  | .monitorBreak => Sys2Proof.Machine.execMonitorBreak s
  | .romRecoveryImage image => Sys2Proof.Machine.execRomRecoveryImage image s
  | .powerOn voltage => Sys2Proof.Machine.execPowerOn voltage s
  | .bootStepEnd env => Sys2Proof.Machine.execBootStepEnd env s
  | .inputWarn voltage t => Sys2Proof.Machine.execInputWarn voltage t s
  | .voltageShutdown isOver voltage t => Sys2Proof.Machine.execVoltageShutdown isOver voltage t s
  | .standbyLoss => Sys2Proof.Machine.execStandbyLoss s
  | .powerSample watts dies t => Sys2Proof.Machine.execPowerSample watts dies t s
  | .powerDemandStep average t => Sys2Proof.Machine.execPowerDemandStep average t s
  | .sensorRead readings t => Sys2Proof.Machine.execSensorRead readings t s
  | .sensorCrossCheck t => Sys2Proof.Machine.execSensorCrossCheck t s
  | .thermalDemandStep t => Sys2Proof.Machine.execThermalDemandStep t s
  | .shutdownStage t => Sys2Proof.Machine.execShutdownStage t s
  | .coolantWarn inlet outlet t => Sys2Proof.Machine.execCoolantWarn inlet outlet t s
  | .wakeStateEntry die t => Sys2Proof.Machine.execWakeStateEntry die t s
  | .wakeStart die t => Sys2Proof.Machine.execWakeStart die t s
  | .wakeComplete die t => Sys2Proof.Machine.execWakeComplete die t s
  | .lightLoss engine power => Sys2Proof.Machine.execLightLoss engine power s
  | .lightReturn engine power => Sys2Proof.Machine.execLightReturn engine power s
  | .portTrainingComplete port => Sys2Proof.Machine.execPortTrainingComplete port s
  | .laneLockLoss port lane => Sys2Proof.Machine.execLaneLockLoss port lane s
  | .laneErrorWindow port ratios crcFails => Sys2Proof.Machine.execLaneErrorWindow port ratios crcFails s
  | .hostLinkModuleLoss die module => Sys2Proof.Machine.execHostLinkModuleLoss die module s
  | .bridgeModuleLoss die module => Sys2Proof.Machine.execBridgeModuleLoss die module s
  | .routerSlotEntry die bent crcBad reads => Sys2Proof.Machine.execRouterSlotEntry die bent crcBad reads s
  | .fabricStall die bent port t => Sys2Proof.Machine.execFabricStall die bent port t s
  | .fabricResume t => Sys2Proof.Machine.execFabricResume t s
  | .segmentQuantise die bent arr slot take half score => Sys2Proof.Machine.execSegmentQuantise die bent arr slot take half score s
  | .forwardPass die bent arr slot score => Sys2Proof.Machine.execForwardPass die bent arr slot score s
  | .transposedPass die bent arr slot => Sys2Proof.Machine.execTransposedPass die bent arr slot s
  | .reserveBeat die bent arr slot => Sys2Proof.Machine.execReserveBeat die bent arr slot s
  | .checkVerdict die bent arr => Sys2Proof.Machine.execCheckVerdict die bent arr s
  | .passEventSettle die bent arr t => Sys2Proof.Machine.execPassEventSettle die bent arr t s
  | .escalationWindowEnd die bent arr => Sys2Proof.Machine.execEscalationWindowEnd die bent arr s
  | .partialWrite die bent arr => Sys2Proof.Machine.execPartialWrite die bent arr s
  | .openZero die bent slot => Sys2Proof.Machine.execOpenZero die bent slot s
  | .openLoad die bent slot sram scr row => Sys2Proof.Machine.execOpenLoad die bent slot sram scr row s
  | .addIn die bent slot sram row => Sys2Proof.Machine.execAddIn die bent slot sram row s
  | .ledgerRead die bent slot sram => Sys2Proof.Machine.execLedgerRead die bent slot sram s
  | .ledgerStore die bent slot => Sys2Proof.Machine.execLedgerStore die bent slot s
  | .ledgerClose die bent slot => Sys2Proof.Machine.execLedgerClose die bent slot s
  | .vecNop die bent slot sram => Sys2Proof.Machine.execVecNop die bent slot sram s
  | .vecAdd die bent slot sram => Sys2Proof.Machine.execVecAdd die bent slot sram s
  | .vecSub die bent slot sram => Sys2Proof.Machine.execVecSub die bent slot sram s
  | .vecMul die bent slot sram => Sys2Proof.Machine.execVecMul die bent slot sram s
  | .vecFma die bent slot sram => Sys2Proof.Machine.execVecFma die bent slot sram s
  | .vecScale die bent slot sram => Sys2Proof.Machine.execVecScale die bent slot sram s
  | .vecRowscale die bent slot sram => Sys2Proof.Machine.execVecRowscale die bent slot sram s
  | .vecSilu die bent slot sram => Sys2Proof.Machine.execVecSilu die bent slot sram s
  | .vecGelu die bent slot sram => Sys2Proof.Machine.execVecGelu die bent slot sram s
  | .vecSwiglu die bent slot sram => Sys2Proof.Machine.execVecSwiglu die bent slot sram s
  | .vecExp die bent slot sram => Sys2Proof.Machine.execVecExp die bent slot sram s
  | .vecRecip die bent slot sram => Sys2Proof.Machine.execVecRecip die bent slot sram s
  | .vecRsqrt die bent slot sram => Sys2Proof.Machine.execVecRsqrt die bent slot sram s
  | .vecAttRescale die bent slot sram soft => Sys2Proof.Machine.execVecAttRescale die bent slot sram soft s
  | .vecConvert die bent slot sram => Sys2Proof.Machine.execVecConvert die bent slot sram s
  | .vecSum die bent slot sram => Sys2Proof.Machine.execVecSum die bent slot sram s
  | .vecSumsq die bent slot sram => Sys2Proof.Machine.execVecSumsq die bent slot sram s
  | .vecMeanvar die bent slot sram => Sys2Proof.Machine.execVecMeanvar die bent slot sram s
  | .vecMax die bent slot sram => Sys2Proof.Machine.execVecMax die bent slot sram s
  | .vecMin die bent slot sram => Sys2Proof.Machine.execVecMin die bent slot sram s
  | .vecAbsmax die bent slot sram => Sys2Proof.Machine.execVecAbsmax die bent slot sram s
  | .vecDot die bent slot sram => Sys2Proof.Machine.execVecDot die bent slot sram s
  | .vecMerge die bent slot sram => Sys2Proof.Machine.execVecMerge die bent slot sram s
  | .vecAdamw die bent slot sram => Sys2Proof.Machine.execVecAdamw die bent slot sram s
  | .vecRepackCol die bent slot sram => Sys2Proof.Machine.execVecRepackCol die bent slot sram s
  | .vecPack die bent slot sram => Sys2Proof.Machine.execVecPack die bent slot sram s
  | .vecMxReblock die bent slot sram => Sys2Proof.Machine.execVecMxReblock die bent slot sram s
  | .windowOpen die engine slot => Sys2Proof.Machine.execWindowOpen die engine slot s
  | .takeQuery die engine slot sram => Sys2Proof.Machine.execTakeQuery die engine slot sram s
  | .takeFresh die engine slot sram => Sys2Proof.Machine.execTakeFresh die engine slot sram s
  | .windowClose die engine slot done t => Sys2Proof.Machine.execWindowClose die engine slot done t s
  | .attSend die engine slot => Sys2Proof.Machine.execAttSend die engine slot s
  | .gradAccumulate die gunit slot sram => Sys2Proof.Machine.execGradAccumulate die gunit slot sram s
  | .gradFlushComplete die gunit => Sys2Proof.Machine.execGradFlushComplete die gunit s
  | .gradFoldComplete die gunit tile => Sys2Proof.Machine.execGradFoldComplete die gunit tile s
  | .weightFeedLoad ctx die slot kv => Sys2Proof.Machine.execWeightFeedLoad ctx die slot kv s
  | .planeLoadComplete die bent x => Sys2Proof.Machine.execPlaneLoadComplete die bent x s
  | .planeDrainEnd die bent arr => Sys2Proof.Machine.execPlaneDrainEnd die bent arr s
  | .ringPortRead ctx die port slot ready upset => Sys2Proof.Machine.execRingPortRead ctx die port slot ready upset s
  | .ringPortWrite ctx die port slot crcBad => Sys2Proof.Machine.execRingPortWrite ctx die port slot crcBad s
  | .kvEntryWrite die req layer pos ring => Sys2Proof.Machine.execKvEntryWrite die req layer pos ring s
  | .gateArrival ctx slot t => Sys2Proof.Machine.execGateArrival ctx slot t s
  | .gateRelease ctx outs seen => Sys2Proof.Machine.execGateRelease ctx outs seen s
  | .gateDeadline ctx t => Sys2Proof.Machine.execGateDeadline ctx t s
  | .planResume ctx fslot => Sys2Proof.Machine.execPlanResume ctx fslot s
  | .liveWindowClose die bent arr line => Sys2Proof.Machine.execLiveWindowClose die bent arr line s
  | .updateSetWrite die bent arr => Sys2Proof.Machine.execUpdateSetWrite die bent arr s
  | .rateWindowEnd die bent arr => Sys2Proof.Machine.execRateWindowEnd die bent arr s
  | .recalibrationStart die bent t => Sys2Proof.Machine.execRecalibrationStart die bent t s
  | .recalibrationComplete die bent t sram => Sys2Proof.Machine.execRecalibrationComplete die bent t sram s
  | .spillStart die t => Sys2Proof.Machine.execSpillStart die t s
  | .spillComplete die frame ok t => Sys2Proof.Machine.execSpillComplete die frame ok t s
  | .prefetchStart die t => Sys2Proof.Machine.execPrefetchStart die t s
  | .prefetchComplete die frame ok data t => Sys2Proof.Machine.execPrefetchComplete die frame ok data t s
  | .requestExpiry req t => Sys2Proof.Machine.execRequestExpiry req t s
  | .shardArrival gen shard data t => Sys2Proof.Machine.execShardArrival gen shard data t s
  | .sealComplete ctx t => Sys2Proof.Machine.execSealComplete ctx t s
  | .hasherShardCheck die upset t => Sys2Proof.Machine.execHasherShardCheck die upset t s
  | .hasherRehash die upset t => Sys2Proof.Machine.execHasherRehash die upset t s
  | .patrolScrubRead stack readback => Sys2Proof.Machine.execPatrolScrubRead stack readback s
  | .regionScrub stack readback => Sys2Proof.Machine.execRegionScrub stack readback s
  | .mapoutComplete block => Sys2Proof.Machine.execMapoutComplete block s
  | .ethernetFrameReceive port data fcsOk => Sys2Proof.Machine.execEthernetFrameReceive port data fcsOk s
  | .ahnazOpen port pkt t => Sys2Proof.Machine.execAhnazOpen port pkt t s
  | .ahnazOpenAck port pkt t => Sys2Proof.Machine.execAhnazOpenAck port pkt t s
  | .ahnazClose port pkt t => Sys2Proof.Machine.execAhnazClose port pkt t s
  | .ahnazWrite port pkt t => Sys2Proof.Machine.execAhnazWrite port pkt t s
  | .ahnazReadReq port pkt t => Sys2Proof.Machine.execAhnazReadReq port pkt t s
  | .ahnazReadResp port pkt t => Sys2Proof.Machine.execAhnazReadResp port pkt t s
  | .ahnazAck port pkt t => Sys2Proof.Machine.execAhnazAck port pkt t s
  | .ahnazNak port pkt t => Sys2Proof.Machine.execAhnazNak port pkt t s
  | .packetSend chan t => Sys2Proof.Machine.execPacketSend chan t s
  | .ackTimer chan t => Sys2Proof.Machine.execAckTimer chan t s
  | .retryTimeout chan t => Sys2Proof.Machine.execRetryTimeout chan t s
  | .openTimeout chan t => Sys2Proof.Machine.execOpenTimeout chan t s
  | .snapshotCopy p => Sys2Proof.Machine.execSnapshotCopy p s
  | .snapshotMarker m => Sys2Proof.Machine.execSnapshotMarker m s
  | .snapshotComplete t => Sys2Proof.Machine.execSnapshotComplete t s
  | .snapshotTimeout t => Sys2Proof.Machine.execSnapshotTimeout t s
  | .periodicAudit t => Sys2Proof.Machine.execPeriodicAudit t s
  | .logRecordWrite => Sys2Proof.Machine.execLogRecordWrite s
  | .updateEnd t => Sys2Proof.Machine.execUpdateEnd t s
  | .reportWritten t => Sys2Proof.Machine.execReportWritten t s
  | .inputWithinRange voltage t => Sys2Proof.Machine.execInputWithinRange voltage t s
  | .coolantInletNormal inlet outlet t => Sys2Proof.Machine.execCoolantInletNormal inlet outlet t s

end Sys2Proof.Machine
end

