-- ==== Sys2Proof/Safety.lean ====
section
/-!
DEFINITION. The terms in which claims are made: a package that is up, a descriptor that is ready to run, what a command may touch
(a frame: everything but the named parts of the state is as before), and the invariants that every step keeps.
-/

namespace Sys2Proof.Machine

/-! ### Situations -/

/-- DEV_STATUS.ready is set and no shutdown runs. -/
def State.isUp (s : State) : Prop := s.ready = true ∧ s.shut = none

/-- The package is up, and the queue engine has started the descriptor `f` of ring index `ix` of queue `q`, whose opcode is `op`. -/
def State.started (s : State) (q ix op : Nat) (f : Flight) : Prop :=
  s.isUp ∧ s.flight q ix = some f ∧ f.phase = .started ∧ dOpcode f.desc = op

/-- The descriptor of ring index `ix` of queue `q` has ended with a status, a detail and a result, and awaits its completion. -/
def State.ended (s : State) (q ix status detail result : Nat) : Prop :=
  ∃ f, s.flight q ix = some f ∧ f.phase = .done ∧ f.status = status ∧ f.detail = detail ∧ f.result = result

/-- The descriptor of ring index `ix` of queue `q` waits for an event to end it. -/
def State.awaits (s : State) (q ix : Nat) : Prop := ∃ f, s.flight q ix = some f ∧ f.phase = .waiting

/-- A page that takes software writes: a unit is behind it, its die is in W0, the package is up, and the host reaches the page
(R41). -/
def State.takesWrites (s : State) (p : Page) : Prop :=
  s.isUp ∧ s.pagePresent p = true ∧ (s.wakeOf p.die).state = 0 ∧ s.reachable p = true

/-- The host reaches the package through a die: the package is up and a module of the die's host link works. -/
def State.hostReaches (s : State) (a : Nat) : Prop := s.isUp ∧ nth 15 s.fab.hostModules (dieOfAddr a) ≠ 0

/-- The descriptor at the head of submission queue `q` may be consumed: the queue's home die is awake, the descriptor's codeword is
sound and in the device's part of T1, neither fence nor wait_before nor a seal keeps it, and a record of the completion queue `c` and a descriptor slot are free (R346,
R347, R350, R351). -/
def State.headReady (s : State) (q : Nat) (x c : Queue) : Prop :=
  s.isUp ∧ s.queue q = some x ∧ x.completion = false ∧ x.stopping = false ∧ x.head ≠ x.tail ∧ s.awake x.home = true ∧
  s.devRange (ringAddr x x.head) 64 = true ∧ s.mem.synd (ringAddr x x.head / 64) = 0 ∧ s.headHeld q x (s.headDesc x) = false ∧ s.queue x.cq = some c ∧
  c.completion = true ∧ cqRoom c = true ∧ s.slotFor x.tenant = true ∧ s.firstTurn q x = true

/-- The head of queue `q` has gone into flight: the flight is the newest, the head has moved by one, and a record is reserved;
no other queue changes. -/
def consumedAs (s t : State) (q : Nat) (x c : Queue) (phase : FPhase) (status : Nat) : Prop :=
  t.que.flights = s.que.flights ++ [flightOf q x (s.handleOf .que q) (s.headDesc x) phase status] ∧
  t.queue q = some { x with head := (x.head + 1) % 2 ^ 32, delayed := false, met := false, waiting := false, outcome := none } ∧
  t.queue x.cq = some { c with reserved := c.reserved + 1 } ∧
  (∀ j, j ≠ q → j ≠ x.cq → t.queue j = s.queue j)

/-- The descriptor of ring index `ix` of queue `q` ends so, and nothing else of the queue engines changes. -/
def endsOnly (s t : State) (q ix status detail result : Nat) : Prop :=
  t.ended q ix status detail result ∧ t.que = (s.finish q ix status detail result).que

/-- The descriptor ends so, and every other descriptor in flight is as before. -/
def flightEnds (s t : State) (q ix status detail result : Nat) : Prop :=
  t.ended q ix status detail result ∧ t.que.flights = (s.finish q ix status detail result).que.flights

/-- The descriptor goes on waiting, and nothing else of the queue engines changes. -/
def waitsOnly (s t : State) (q ix : Nat) : Prop := t.awaits q ix ∧ t.que = (s.waitFlight q ix).que

/-- A packet of type `kind` with a good CRC comes to an UP port, and names the channel `x` that uses this port, with the epochs of the
channel and its peer (R457). -/
def State.hears (s : State) (port kind : Nat) (p : Pkt) (x : Channel) : Prop :=
  s.isUp ∧ s.portOk port = true ∧ s.portUp port = true ∧ p.kind = kind ∧ p.vc < 8 ∧ p.grantVc < 8 ∧ p.crcOk = true ∧
  s.epochsHold p = true ∧ s.chan p.dst = some x ∧ x.port = port

/-! ### Frames -/

/-- Every stored register word but those of the list reads as before. -/
def wordsKept (s t : State) (ws : List Nat) : Prop := ∀ k, k ∉ ws → ∀ d, look d t.regs k = look d s.regs k

/-- The words that an event on a page may change: PAGE_IRQ_STAT, and the pending bit of the page's MSI-X entry (R63). -/
def irqWords (s : State) (p : Page) : List Nat :=
  [p.key Reg.PAGE_IRQ_STAT, pbaKey p.homeDie (s.fld p Reg.PAGE_CTRL 26 16)]

/-- The words that an error on a page may change: its latch, its interrupt, and what a full event log counts (R52, R514). -/
def errWords (s : State) (p : Page) : List Nat :=
  [p.key Reg.PAGE_ERR_CODE, p.key Reg.PAGE_ERR_INFO, p.key Reg.PAGE_ERR_ADDR, p.key (Reg.PAGE_ERR_ADDR + 4),
    (diePage .log 0).key Reg.LOG_LOST_COUNT] ++ irqWords s p ++ irqWords s (diePage .log 0)

/-- Only register words, sent messages, the event log and the counter of free values may differ. -/
def pagesOnly (s t : State) : Prop := t = { s with regs := t.regs, out := t.out, log := t.log, free := t.free }

/-- None of those differs. -/
def pagesKept (s t : State) : Prop := t.regs = s.regs ∧ t.out = s.out ∧ t.log = s.log ∧ t.free = s.free

/-- Only those and descriptors in flight may differ. -/
def queueOnly (s t : State) : Prop :=
  t = { s with regs := t.regs, out := t.out, log := t.log, free := t.free, que := t.que }

/-- Only register words, sent messages, the event log, free values and T1 may differ. -/
def memOnly (s t : State) : Prop :=
  t = { s with regs := t.regs, out := t.out, log := t.log, free := t.free, mem := t.mem }

/-- Every byte of T1 outside `n` bytes at `a` reads as before, where its codeword was usable. -/
def bytesKept (s t : State) (a n : Nat) : Prop :=
  ∀ x, x < a ∨ a + n ≤ x → s.mem.cwBad (x / 64) = false → t.mem.fixed x = s.mem.fixed x

/-- Every byte of T1 outside the blocks of `n` bytes at `a` reads as before, where its codeword was usable. -/
def blocksKept (s t : State) (a n : Nat) : Prop :=
  ∀ x, x / 4096 ∉ blksOf a n → s.mem.cwBad (x / 64) = false → t.mem.fixed x = s.mem.fixed x

/-- A write of `n` bytes at `a` finds every block that it covers in part sound: its codewords without error, and the block unsealed,
or without the poison flag and with a scribe that its bytes meet (R419, R426, R427). -/
def State.soundBlocks (s : State) (a n : Nat) : Prop :=
  ∀ b, b ∈ blksOf a n → wholeBlk a n b = true ∨
    ((∀ c, c ∈ cwsOf (b * 4096) 4096 → s.mem.synd c = 0) ∧
      (bitAt (scribeFlags (s.mem.scribeOf b)) 4 = true ∨
        (Flag.isPoison (scribeFlags (s.mem.scribeOf b)) = false ∧
          crc32c (s.mem.bytes (b * 4096) 4096) = scribeCrc (s.mem.scribeOf b))))

/-- A unit has written a byte string at `a`: where the blocks it covers in part were sound its bytes read back, and every byte of
other blocks reads as before. -/
def written (s t : State) (a : Nat) (bs : Bytes) : Prop :=
  (s.soundBlocks a bs.length → ∀ i, i < bs.length → t.mem.fixed (a + i) = bs.getD i 0) ∧ blocksKept s t a bs.length

/-! ### Plan work of the bents -/

/-- Every other bent is as before. -/
def bentsKept (s t : State) (die bent : Nat) : Prop := ∀ d c, bentKey d c ≠ bentKey die bent → t.bent d c = s.bent d c

/-- Every array but those of the list is as before. -/
def arrsKept (s t : State) (ks : List Nat) : Prop := ∀ d b a, arrKey d b a ∉ ks → t.arr d b a = s.arr d b a

/-- What reads of SRAM words leave besides the data: corrected bits counted for the page, permanent faults noted, two wrong bits latched
in it (R411, Table 14-13). -/
def sramNoted (s t : State) (p : Page) (xs : List SramRead) : Prop :=
  t.sramFixed = (s.sramsSeen p none xs).sramFixed ∧ t.sramWorn = (s.sramsSeen p none xs).sramWorn ∧
  (xs.any sramLost = true → t.errValid p = true)

/-- A bent's bench takes byte strings: where they are disjoint each is found at its address, every byte outside them is as before,
and the rows of the ledger change in their flags at most. -/
def benchTakes (b c : Bent) (ws : List (Nat × List Nat)) : Prop :=
  (ws.Pairwise (fun u v => u.1 + u.2.length ≤ v.1 ∨ v.1 + v.2.length ≤ u.1) →
    ∀ w, w ∈ ws → ∀ j, j < w.2.length → c.byte (w.1 + j) = nth 0 w.2 j % 256) ∧
  (∀ x, (∀ w, w ∈ ws → x < w.1 ∨ w.1 + w.2.length ≤ x) → c.byte x = b.byte x) ∧
  (∀ k, { c.row k with flags := (b.row k).flags } = b.row k)

/-- A bent's vector stream meets, in a step slot, a word whose record `r` names operation `op`, for the running plan `l`. -/
def State.vecMeets (s : State) (die bent slot op : Nat) (l : Live) (r : VRec) : Prop :=
  s.isUp ∧ bent < 128 ∧ ∃ w, s.bentWord 3 die bent 0 slot = some (l, w) ∧ bits w 63 60 = 1 ∧
    r = (s.bent die bent).vrec (bits w 20 0) ∧ r.op = op

/-- The record of a vector word as it runs: with the phase of an optimiser's step in which it stands (R254). -/
def VRec.inPhase (r : VRec) (l : Live) (slot : Nat) : VRec := { r with scan := l.scanning slot }

/-- A vector word runs: it writes its result (`o.1`) and what else the record writes (`o.2`), or puts the result on the bent's L
port in slots from `VRec.outSlot` on; it holds the unit for the slots of its record, the router waits for it no more, and nothing
but the marks, counters and log of its page, an optimiser step's findings and, on poison, the fault of its context changes
besides. -/
def vecWrites (s t : State) (die bent slot : Nat) (sram : SramRead) (l : Live) (r : VRec) (o : List Nat × List (Nat × List Nat)) : Prop :=
  let x := s.vecTake die bent l slot r
  let poison := Flag.isPoison ((s.bent die bent).inFlags r ((fabIn x.1 x.2).seen sram))
  benchTakes (s.bent die bent) (t.bent die bent) (r.stores o.1 o.2) ∧
  (t.bent die bent).vecBusy = l.fabSlot slot + r.slots ∧
  bentsKept s t die bent ∧ (poison = false → l.p.img.optimiser = false → t.ctxs = s.ctxs) ∧
  (r.outFab = false → t.fab.staged = s.fab.staged) ∧
  (r.outFab = true → ∀ i, i < ceilDiv o.1.length 128 → ∃ g : Flit,
    (bentKey die bent, 4, r.outSlot (l.fabSlot slot) + i, g) ∈ t.fab.staged ∧
    g.data = leNat (((o.1.drop (128 * i)).take 128).map (BitVec.ofNat 8)) ∧ g.late = false ∧ g.poison = Flag.isPoison g.flags) ∧
  t.fab = { s.fab with staged := t.fab.staged, given := (bentKey die bent, vecPort, l.fabSlot slot) :: s.fab.given } ∧
  sramNoted s t (ledgPage die bent) [sram] ∧
  t = { s with regs := t.regs, out := t.out, log := t.log, free := t.free, bents := t.bents, ctxs := t.ctxs, fab := t.fab,
               sramFixed := t.sramFixed, sramWorn := t.sramWorn }

/-- A vector word that may not run is dropped and counted, and no bench word changes (R197). -/
def vecDrops (s t : State) (die bent fslot : Nat) : Prop :=
  t.rd (ledgPage die bent) Reg.LEDG_VEC_DROP_COUNT = satAdd (s.rd (ledgPage die bent) Reg.LEDG_VEC_DROP_COUNT) 1 ∧
  (t.bent die bent).bench = (s.bent die bent).bench ∧ bentsKept s t die bent ∧
  t = { s with regs := t.regs, out := t.out, bents := t.bents,
               fab := { s.fab with given := (bentKey die bent, vecPort, fslot) :: s.fab.given } }

/-- What the command `c` of vector operation `op` does: a word whose record is valid and finds the unit free, with its operands from
the fabric come, has the result and the other writes that `f` gives; before they have come it waits; any other is dropped. -/
def vecDoes (c : Nat → Nat → Nat → SramRead → Instr) (op : Nat) (f : VIn → Bent → VRec → List Nat × List (Nat × List Nat)) : Prop :=
  ∀ (s : State) (die bent slot : Nat) (sram : SramRead) (l : Live) (r : VRec), s.vecMeets die bent slot op l r →
    (r.invalid = true ∨ l.fabSlot slot < (s.bent die bent).vecBusy →
      ∃ t, exec (c die bent slot sram) s = .next t ∧ vecDrops s t die bent (l.fabSlot slot)) ∧
    (r.invalid = false → (s.bent die bent).vecBusy ≤ l.fabSlot slot →
      (s.vecCome die bent l slot r = false → exec (c die bent slot sram) s = .next s) ∧
      (s.vecCome die bent l slot r = true → ∃ t, exec (c die bent slot sram) s = .next t ∧
        vecWrites s t die bent slot sram l r (f (s.vecTake die bent l slot r) (s.bent die bent) (r.inPhase l slot))))

/-- An elementwise result: the values in the record's format, and the scales of FP8 (Table 06-15). -/
def storesOf (f : VIn → Bent → VRec → List FRes) (x : VIn) (b : Bent) (r : VRec) : List Nat × List (Nat × List Nat) :=
  let e := encodeRes r.fmt ((f x b r).map (fun v => v.bits))
  if r.count = 0 then ([], []) else (e.1, if r.fmt = 2 then [(r.aux, e.2)] else [])

/-- The 16 bytes of a reduction (Table 06-16). -/
def stateBytes (op : Nat) (q : RSt) : List Nat × List (Nat × List Nat) :=
  let var := if q.c = 0 then 0 else (fDiv q.m2 (natF32 q.c)).bits
  (toBytes 4 (if op = 0x12 then [q.c % 2 ^ 32, q.v, q.m2, var] else [q.v, 0, 0, 0]), [])

/-! ### Invariants -/

/-- R474, R475, R481: each demand lies between 1,000 ps and 1,300 ps, and the pacer is the larger one. -/
def Pwr.sound (p : Pwr) : Prop :=
  1000 ≤ p.power ∧ p.power ≤ 1300 ∧ 1000 ≤ p.thermal ∧ p.thermal ≤ 1300 ∧ p.pacer = max p.power p.thermal

def State.pacerSound (s : State) : Prop := s.pwr.sound

/-- T1 stays in its canonical form. -/
def State.memorySound (s : State) : Prop := Memory.wf s.mem = true

end Sys2Proof.Machine
end

