-- ==== Sys2Proof/Certificates/Slice0/Obligations.lean ====
section
/-!
DEFINITION. The statements for the provers: one Prop per obligation of OBLIGATIONS.json.
-/

open Sys2Proof Sys2Proof.Machine

/-- O1. For every command c and state s with c at the front of its queue, step s is exec of c on s with the queue's rest; with
nothing in its queue the block idles (both are the model's own convention, DESIGN CHOICE: log entry 1). -/
def Obligations.StepRunsTheFrontCommand : Prop :=
  (∀ (c : Instr) (rest : List Instr) (s : State), s.pending = c :: rest → step s = exec c { s with pending := rest }) ∧
  (∀ s : State, s.pending = [] → step s = .next s)

/-- O2. A started NOP ends with status OK and changes nothing else. A started SYNC_ADD whose handle passes R59 and whose sum
stays below 2^64 adds the operand to the object's value, counts it in SYNC_ADD_COUNT and ends OK; a started SYNC_SET writes
the operand and counts it in SYNC_SET_COUNT. Every other object, register word, descriptor and part of the package is
unchanged. A started SYNC_ADD whose sum reaches 2^64 ends with LENGTH_EXCEEDS_BUFFER and leaves every object;
SYNC_REFUSED_COUNT gains 1, and only the SYNC page's error latch and interrupt words may change besides. -/
def Obligations.NopAndSyncObjectsUpdate : Prop :=
  (∀ (s : State) (q ix : Nat) (f : Flight), s.started q ix 0x00 f →
    ∃ t, exec (.nop q ix) s = .next t ∧ endsOnly s t q ix 0 0 0 ∧ t = { s with que := t.que }) ∧
  (∀ (s : State) (q ix : Nat) (f : Flight), s.started q ix 0x01 f →
    let h := dHandle f.desc
    let n := dField f.desc 0x28 8
    s.checkHandle f.tenant .sync h = 0 → s.sync (hIdx h) + n < 2 ^ 64 →
    ∃ t, exec (.syncAdd q ix) s = .next t ∧ endsOnly s t q ix 0 0 0 ∧ t.sync (hIdx h) = s.sync (hIdx h) + n ∧
      (∀ j, j ≠ hIdx h → t.sync j = s.sync j) ∧
      t.rd syncPage Reg.SYNC_ADD_COUNT = satAdd (s.rd syncPage Reg.SYNC_ADD_COUNT) 1 ∧
      wordsKept s t [syncPage.key Reg.SYNC_ADD_COUNT] ∧
      t = { s with regs := t.regs, syncs := t.syncs, que := t.que }) ∧
  (∀ (s : State) (q ix : Nat) (f : Flight), s.started q ix 0x02 f →
    let h := dHandle f.desc
    s.checkHandle f.tenant .sync h = 0 →
    ∃ t, exec (.syncSet q ix) s = .next t ∧ endsOnly s t q ix 0 0 0 ∧ t.sync (hIdx h) = dField f.desc 0x28 8 ∧
      (∀ j, j ≠ hIdx h → t.sync j = s.sync j) ∧
      t.rd syncPage Reg.SYNC_SET_COUNT = satAdd (s.rd syncPage Reg.SYNC_SET_COUNT) 1 ∧
      wordsKept s t [syncPage.key Reg.SYNC_SET_COUNT] ∧
      t = { s with regs := t.regs, syncs := t.syncs, que := t.que }) ∧
  (∀ (s : State) (q ix : Nat) (f : Flight), s.started q ix 0x01 f →
    let h := dHandle f.desc
    s.checkHandle f.tenant .sync h = 0 → 2 ^ 64 ≤ s.sync (hIdx h) + dField f.desc 0x28 8 →
    ∃ t, exec (.syncAdd q ix) s = .next t ∧ endsOnly s t q ix Err.length 0 0 ∧ t.syncs = s.syncs ∧
      t.rd syncPage Reg.SYNC_REFUSED_COUNT = satAdd (s.rd syncPage Reg.SYNC_REFUSED_COUNT) 1 ∧
      wordsKept s t (syncPage.key Reg.SYNC_REFUSED_COUNT :: errWords s syncPage) ∧ queueOnly s t)

/-- O3. A started SYNC_CREATE that finds a free slot takes the next one for its tenant, gives the object the operand as its
value, and ends OK with the object's handle. A started SYNC_DESTROY whose handle passes R59, and whose object no other
descriptor in flight signals, ends OK: the slot holds no object and its generation is the next one; a SYNC_WAIT without
deadline at a queue's head that the value satisfies has the outcome OK. Every other slot and object is unchanged. On a SYNC
page that takes writes, with a SYNC_HOST_HANDLE that passes the checks as its own tenant's: the read puts the object's value
into SYNC_HOST_VALUE; the add whose sum stays below 2^64, and the set, change the object by SYNC_HOST_VALUE and no other
object. Each leaves the code OK in SYNC_HOST_CMD and changes no other register word but its own count. -/
def Obligations.SyncObjectsComeAndGo : Prop :=
  (∀ (s : State) (q ix : Nat) (f : Flight), s.started q ix 0x04 f → s.hasFreeSlot .sync = true →
    let i := s.nextSlot .sync
    ∃ t, exec (.syncCreate q ix) s = .next t ∧ endsOnly s t q ix 0 0 (s.handleOf .sync i) ∧
      t.sync i = dField f.desc 0x28 8 ∧ (∀ j, j ≠ i → t.sync j = s.sync j) ∧
      t.slot .sync i = { s.slot .sync i with live := true, owner := some f.tenant } ∧
      (∀ j, j ≠ i → t.slot .sync j = s.slot .sync j) ∧
      t.handles = { s.handles with sync := t.handles.sync } ∧
      t = { s with handles := t.handles, syncs := t.syncs, que := t.que }) ∧
  (∀ (s : State) (q ix : Nat) (f : Flight), s.started q ix 0x05 f →
    let h := dHandle f.desc
    s.checkHandle f.tenant .sync h = 0 → s.syncInUse f h = false →
    ∃ t, exec (.syncDestroy q ix) s = .next t ∧ flightEnds s t q ix 0 0 0 ∧
      t.slot .sync (hIdx h) = { s.slot .sync (hIdx h) with live := false, gen := nextGen (s.slot .sync (hIdx h)).gen } ∧
      (∀ j, j ≠ hIdx h → t.slot .sync j = s.slot .sync j ∧ t.sync j = s.sync j) ∧
      t.handles = { s.handles with sync := t.handles.sync } ∧
      (∀ j x, s.queue j = some x → ∃ y, t.queue j = some y ∧
        y = { x with met := y.met, waiting := y.waiting, outcome := y.outcome } ∧
        (x.completion = false → x.stopping = false → x.head ≠ x.tail → s.devRange (ringAddr x x.head) 64 = true →
          s.headPoisoned x = false → dOpcode (s.headDesc x) = 3 → dHandle (s.headDesc x) = h → x.outcome = none →
          s.waitCode j (s.seeWait j x (s.headDesc x)) (s.headDesc x) = 0 →
          s.headHeld j (s.seeWait j x (s.headDesc x)) (s.headDesc x) = false → dField (s.headDesc x) 0x30 8 = 0 →
          dField (s.headDesc x) 0x28 8 ≤ s.sync (hIdx h) → y.outcome = some 0)) ∧
      wordsKept s t [syncPage.key Reg.SYNC_WAIT_COUNT, syncPage.key Reg.SYNC_TIE_COUNT, syncPage.key Reg.SYNC_TIMEOUT_COUNT] ∧
      t = { s with regs := t.regs, handles := t.handles, syncs := t.syncs, ctxs := t.ctxs, que := t.que }) ∧
  (∀ s : State, s.takesWrites syncPage → s.checkOwn .sync s.hostHandle = 0 → s.sync (hIdx s.hostHandle) < 2 ^ 64 →
    ∃ t, exec .syncHostRead s = .next t ∧ t.rd64 syncPage Reg.SYNC_HOST_VALUE = s.sync (hIdx s.hostHandle) ∧
      t.rd syncPage Reg.SYNC_HOST_CMD = 0 ∧
      wordsKept s t [syncPage.key Reg.SYNC_HOST_VALUE, syncPage.key (Reg.SYNC_HOST_VALUE + 4),
        syncPage.key Reg.SYNC_HOST_CMD] ∧ t = { s with regs := t.regs }) ∧
  (∀ s : State, s.takesWrites syncPage → s.checkOwn .sync s.hostHandle = 0 →
    let i := hIdx s.hostHandle
    s.sync i + s.hostValue < 2 ^ 64 →
    ∃ t, exec .syncHostAdd s = .next t ∧ t.sync i = s.sync i + s.hostValue ∧ (∀ j, j ≠ i → t.sync j = s.sync j) ∧
      t.rd syncPage Reg.SYNC_HOST_CMD = 0 ∧
      wordsKept s t [syncPage.key Reg.SYNC_ADD_COUNT, syncPage.key Reg.SYNC_HOST_CMD] ∧
      t = { s with regs := t.regs, syncs := t.syncs }) ∧
  (∀ s : State, s.takesWrites syncPage → s.checkOwn .sync s.hostHandle = 0 →
    let i := hIdx s.hostHandle
    ∃ t, exec .syncHostSet s = .next t ∧ t.sync i = s.hostValue ∧ (∀ j, j ≠ i → t.sync j = s.sync j) ∧
      t.rd syncPage Reg.SYNC_HOST_CMD = 0 ∧
      wordsKept s t [syncPage.key Reg.SYNC_SET_COUNT, syncPage.key Reg.SYNC_HOST_CMD] ∧
      t = { s with regs := t.regs, syncs := t.syncs })

/-- O4. A started QUEUE_CREATE that passes the checks of R518 makes the queue its operands describe, empty, in the next free
queue slot, and ends OK with its handle. A started QUEUE_DESTROY of a completion queue that nothing names, or of a
submission queue that has no other consumed descriptor, ends OK and the queue is gone; of a submission queue with other
consumed descriptors, consumption stops and the descriptor stays. Every other queue is unchanged. -/
def Obligations.QueuesComeAndGo : Prop :=
  (∀ (s : State) (q ix : Nat) (f : Flight), s.started q ix 0x06 f → s.queueCreateCode f.tenant f.desc = 0 →
    let i := s.nextSlot .que
    ∃ t, exec (.queueCreate q ix) s = .next t ∧ flightEnds s t q ix 0 0 (s.handleOf .que i) ∧
      t.queue i = some (newQueue f.tenant f.desc) ∧ (∀ j, j ≠ i → t.queue j = s.queue j) ∧
      t.que = { s.que with queues := t.que.queues, flights := t.que.flights } ∧
      t.handles = { s.handles with que := t.handles.que } ∧ t = { s with handles := t.handles, que := t.que }) ∧
  (∀ (s : State) (q ix : Nat) (f : Flight) (x : Queue), s.started q ix 0x07 f →
    let h := dHandle f.desc
    s.checkHandle f.tenant .que h = 0 → 32 ≤ hIdx h → s.queue (hIdx h) = some x →
    (if x.completion then s.cqNamed (hIdx h) = false
      else s.que.flights.any (fun g => g.q == hIdx h && !isFlight f.q f.ix g) = false) →
    ∃ t, exec (.queueDestroy q ix) s = .next t ∧ flightEnds s t q ix 0 0 0 ∧
      t.queue (hIdx h) = none ∧ (∀ j, j ≠ hIdx h → t.queue j = s.queue j) ∧ (t.slot .que (hIdx h)).live = false ∧
      (t.slot .que (hIdx h)).gen = nextGen (s.slot .que (hIdx h)).gen ∧
      t.handles = { s.handles with que := t.handles.que } ∧ t = { s with handles := t.handles, que := t.que }) ∧
  (∀ (s : State) (q ix : Nat) (f : Flight) (x : Queue), s.started q ix 0x07 f →
    let h := dHandle f.desc
    s.checkHandle f.tenant .que h = 0 → 32 ≤ hIdx h → s.queue (hIdx h) = some x → x.completion = false →
    s.que.flights.any (fun g => g.q == hIdx h && !isFlight f.q f.ix g) = true →
    ∃ t, exec (.queueDestroy q ix) s = .next t ∧ t.queue (hIdx h) = some { x with stopping := true } ∧
      (∀ j, j ≠ hIdx h → t.queue j = s.queue j) ∧ t.que.flights = s.que.flights ∧ t = { s with que := t.que })

/-- O5. Where a submission queue of an awake home die has a descriptor at its head that nothing keeps there, in a sound
codeword, and a record and a descriptor slot are free: DESCRIPTOR_CONSUME starts a descriptor that passes steps 1 and 2 of
R345 and is no SYNC_WAIT; SYNC_WAIT at tick n, of a SYNC_WAIT whose handles pass and whose object's value has reached the
target before its deadline, consumes it with status OK, and with POISON_CONSUMED where the object cannot be read;
SYNC_WAIT_DEADLINE at or after its deadline, with the value below the target, consumes it with TIMEOUT. Each time the flight
is added, the head moves by one, one record is reserved, and device time moves to n. -/
def Obligations.DescriptorsAreConsumed : Prop :=
  (∀ (s : State) (q n : Nat) (x c : Queue), s.headReady q x c → dOpcode (s.headDesc x) ≠ 3 → x.outcome = none →
    s.headCode q x (s.headDesc x) = 0 →
    ∃ t, exec (.descriptorConsume q n .clean) s = .next t ∧ consumedAs s t q x c .started 0 ∧ t.time = max s.time n) ∧
  (∀ (s : State) (q n : Nat) (x c : Queue), s.headReady q x c →
    let d := s.headDesc x
    dOpcode d = 3 → s.waitCode q x d = 0 → x.outcome = none → dField d 0x28 8 ≤ s.sync (hIdx (dHandle d)) →
    (dField d 0x30 8 = 0 ∨ n ≤ dField d 0x30 8) →
    ∃ t, exec (.syncWait q ⟨n, .clean⟩) s = .next t ∧ consumedAs s t q x c .done 0 ∧ t.time = max s.time n ∧ t.syncs = s.syncs) ∧
  (∀ (s : State) (q n : Nat) (x c : Queue) (z : SramRead), s.headReady q x c →
    let d := s.headDesc x
    dOpcode d = 3 → s.waitCode q x d = 0 → x.outcome = none →
    (sramLost z = true → ∃ t, exec (.syncWait q ⟨n, z⟩) s = .next t ∧ consumedAs s t q x c .done Err.poison ∧ t.syncs = s.syncs) ∧
    (sramLost z = false → exec (.syncWait q ⟨n, z⟩) s = exec (.syncWait q ⟨n, .clean⟩) (s.sramSeen syncPage z none))) ∧
  (∀ (s : State) (q n : Nat) (x c : Queue), s.headReady q x c →
    let d := s.headDesc x
    dOpcode d = 3 → s.waitCode q x d = 0 → x.outcome = none → s.sync (hIdx (dHandle d)) < dField d 0x28 8 →
    dField d 0x30 8 ≠ 0 → dField d 0x30 8 ≤ n →
    ∃ t, exec (.syncWaitDeadline q n) s = .next t ∧ consumedAs s t q x c .done Err.timeout ∧ t.time = max s.time n ∧
      t.syncs = s.syncs)

/-- O6. DESCRIPTOR_COMPLETE of an ended descriptor whose queue is not stopping: the flight is gone; its completion queue gives
the reserved record back, and its tail moves by one unless the descriptor asked for no record and its status is OK; a
signal_after whose handle passes and whose sum stays below 2^64 adds its operand to its object and changes no other;
QUE_DESC_COUNT gains 1; device time moves to n. -/
def Obligations.DescriptorsComplete : Prop :=
  ∀ (s : State) (q ix n : Nat) (f : Flight) (c : Queue), s.isUp → s.flight q ix = some f → f.phase = .done →
    s.queue f.cq = some c → (∀ x, s.queue q = some x → x.stopping = false) →
    ∃ t, exec (.descriptorComplete q ix n) s = .next t ∧
      t.que.flights = s.que.flights.filter (fun g => !isFlight q ix g) ∧
      t.queue f.cq = some (if dErrorOnly f.desc && f.status == 0 then { c with reserved := c.reserved - 1 }
        else { c with reserved := c.reserved - 1, tail := (c.tail + 1) % 2 ^ 32 }) ∧
      (∀ j, j ≠ f.cq → t.queue j = s.queue j) ∧
      t.rd quePage Reg.QUE_DESC_COUNT = satAdd (s.rd quePage Reg.QUE_DESC_COUNT) 1 ∧
      (let h := hIdx (dSignalHandle f.desc)
       let on := dSignalAfter f.desc = true ∧ s.checkHandle f.tenant .sync (dSignalHandle f.desc) = 0 ∧
         s.sync h + dSignalAdd f.desc < 2 ^ 64
       (on → t.sync h = s.sync h + dSignalAdd f.desc ∧ ∀ j, j ≠ h → t.sync j = s.sync j) ∧ (¬ on → t.syncs = s.syncs)) ∧
      t.time = max s.time n ∧
      t = { s with time := t.time, regs := t.regs, out := t.out, log := t.log, free := t.free, mem := t.mem, que := t.que, syncs := t.syncs }

/-- O7. QUE_DOORBELL, on a QUE page that takes writes: a value whose handle and index pass moves the tail of the submission
queue, or the head of the completion queue, that it names, and changes nothing else; one that fails changes no queue, gains
QUE_DOORBELL_DROP_COUNT 1 and touches only the QUE page's error and interrupt words besides. -/
def Obligations.DoorbellsRing : Prop :=
  (∀ (s : State) (v : BitVec 64) (x : Queue), s.takesWrites quePage →
    let h := bits v.toNat 31 0
    let ix := bits v.toNat 63 32
    s.doorbellCode h ix = 0 → s.queue (hIdx h) = some x →
    ∃ t, exec (.queDoorbell v) s = .next t ∧
      t.queue (hIdx h) = some (if x.completion then { x with head := ix } else { x with tail := ix }) ∧
      (∀ j, j ≠ hIdx h → t.queue j = s.queue j) ∧ t = { s with que := { s.que with queues := t.que.queues } }) ∧
  (∀ (s : State) (v : BitVec 64), s.takesWrites quePage → s.doorbellCode (bits v.toNat 31 0) (bits v.toNat 63 32) ≠ 0 →
    ∃ t, exec (.queDoorbell v) s = .next t ∧
      t.rd quePage Reg.QUE_DOORBELL_DROP_COUNT = satAdd (s.rd quePage Reg.QUE_DOORBELL_DROP_COUNT) 1 ∧
      wordsKept s t (quePage.key Reg.QUE_DOORBELL_DROP_COUNT :: errWords s quePage) ∧ pagesOnly s t)

/-- O8. On a QUE page that takes writes, for the tenant of QUE_ADMIN_SEL: ADMIN_QUEUE_ENABLE, while disabled and with no admin
queue left, creates the submission queue in slot t and the completion queue in slot 16 + t, both empty, and no other queue
changes. ADMIN_QUEUE_DISABLE, while enabled, removes both queues when no descriptor of the submission queue is in flight,
and otherwise stops consumption from it. -/
def Obligations.AdminQueuesEnableAndDisable : Prop :=
  (∀ (s : State) (msix : Nat), s.takesWrites quePage → look false s.que.adminEn s.adminSel = false →
    s.adminGone s.adminSel = true →
    let n := s.adminSel
    let x := adminQueue false n (look 0 s.que.adminBase n) (look 0 s.que.adminCtrl n) msix
    let c := adminQueue true n (look 0 s.que.adminBase n) (look 0 s.que.adminCtrl n) msix
    ∃ t, exec (.adminQueueEnable msix) s = .next t ∧ t.queue n = some x ∧ t.queue (16 + n) = some c ∧
      x.head = 0 ∧ x.tail = 0 ∧ c.head = 0 ∧ c.tail = 0 ∧ look false t.que.adminEn n = true ∧
      (∀ j, j ≠ n → j ≠ 16 + n → t.queue j = s.queue j) ∧ t.que.flights = s.que.flights ∧
      t = { s with regs := t.regs, out := t.out, log := t.log, free := t.free, mem := t.mem, handles := t.handles, que := t.que }) ∧
  (∀ (s : State) (x : Queue), s.takesWrites quePage → look false s.que.adminEn s.adminSel = true →
    s.queue s.adminSel = some x →
    let n := s.adminSel
    let busy := s.que.flights.any (fun f => f.q == n)
    ∃ t, exec .adminQueueDisable s = .next t ∧ look false t.que.adminEn n = false ∧
      t.queue n = (if busy then some { x with stopping := true } else none) ∧
      t.queue (16 + n) = (if busy then s.queue (16 + n) else none) ∧
      (∀ j, j ≠ n → j ≠ 16 + n → t.queue j = s.queue j) ∧ t.que.flights = s.que.flights ∧
      t = { s with handles := t.handles, que := t.que })

/-- O9. A started COPY whose operands pass ends with status OK and the number of poisoned blocks it made as detail (at most
0xFFFF). Where source, destination and length are whole 4 KiB blocks, the ranges are disjoint and no block came out
poisoned, every destination byte then reads as the source byte read before. Whatever the operands, every byte outside the
destination's blocks whose codeword was usable reads as before, and nothing but T1, register words, messages, the event log,
free values and the descriptor changes. -/
def Obligations.CopyMovesBytesAndNothingElse : Prop :=
  ∀ (s : State) (q ix : Nat) (f : Flight), s.started q ix 0x10 f → s.copyCode f.desc = 0 →
    let src := dField f.desc 0x20 8
    let dst := dField f.desc 0x28 8
    let n := dField f.desc 0x30 8
    let bad := (s.copyRange f.home src dst n).1
    ∃ t, exec (.copy q ix) s = .next t ∧ endsOnly s t q ix 0 (min bad 0xFFFF) 0 ∧
      (src % 4096 = 0 → dst % 4096 = 0 → n % 4096 = 0 → (src + n ≤ dst ∨ dst + n ≤ src) → bad = 0 →
        ∀ i, i < n → t.mem.fixed (dst + i) = s.mem.fixed (src + i)) ∧
      blocksKept s t dst n ∧
      t = { s with regs := t.regs, out := t.out, log := t.log, free := t.free, mem := t.mem, que := t.que }

/-- O10. A started CONTEXT_CREATE whose record is read without poison and passes the checks of Table 07-4, with a free slot,
makes a context in the next slot with no plan and no run, the record's groups and a fresh key pair, and ends OK with its
handle. A started CONTEXT_DESTROY whose handle passes, of a context that runs no plan, ends OK: the context is gone and its
slot has the next generation; while WEIGHT_LOADs that validated the handle are waiting it does nothing yet. Of a context
whose plan runs between gates it waits for the next gate. -/
def Obligations.ContextsComeAndGo : Prop :=
  (∀ (s : State) (q ix : Nat) (f : Flight), s.started q ix 0x08 f →
    let a := dField f.desc 0x20 8
    let r := s.unitRead a 64
    let n := fieldB r.1.data 0 2
    let r2 := r.2.unitRead a (64 + 16 * n)
    64 ≤ dField f.desc 0x28 8 → s.devRange a 64 = true → Flag.isPoison r.1.flags = false →
    1 ≤ n → n ≤ 64 → 64 + 16 * n ≤ dField f.desc 0x28 8 → fieldB r.1.data 2 2 ≤ 255 → s.devRange a (64 + 16 * n) = true →
    Flag.isPoison r2.1.flags = false → r2.2.kvCheck r2.1.data (kvRecOf r2.1.data) = (0, 0) → s.hasFreeSlot .ctx = true →
    let i := s.nextSlot .ctx
    ∃ t, exec (.contextCreate q ix) s = .next t ∧ endsOnly s t q ix 0 0 (s.handleOf .ctx i) ∧
      t.ctx i = some (newCtx f.tenant s.time (kvRecOf r2.1.data) (Config.mlkemDraw r2.2.free)
        (Config.freshBytes r2.2.free 32)) ∧ (∀ j, j ≠ i → t.ctx j = s.ctx j) ∧
      t.slot .ctx i = { s.slot .ctx i with live := true, owner := some f.tenant } ∧
      t.handles = { s.handles with ctx := t.handles.ctx } ∧
      t = { s with regs := t.regs, out := t.out, log := t.log, free := t.free, mem := t.mem, que := t.que, handles := t.handles, ctxs := t.ctxs }) ∧
  (∀ (s : State) (q ix : Nat) (f : Flight) (x : Ctx), s.started q ix 0x09 f →
    let h := dHandle f.desc
    s.checkHandle f.tenant .ctx h = 0 → s.ctx (hIdx h) = some x → x.run = none →
    (s.ctxLoading (hIdx h) = true → exec (.contextDestroy q ix) s = .next s) ∧
    (s.ctxLoading (hIdx h) = false → ∃ t, exec (.contextDestroy q ix) s = .next t ∧ t.ended q ix 0 0 0 ∧ t.ctx (hIdx h) = none ∧
      (t.slot .ctx (hIdx h)).live = false ∧ (t.slot .ctx (hIdx h)).gen = nextGen (s.slot .ctx (hIdx h)).gen ∧
      (s.reqsOf (hIdx h) = [] → t.mem = s.mem ∧ t.syncs = s.syncs))) ∧
  (∀ (s : State) (q ix : Nat) (f : Flight) (l : Live), s.started q ix 0x09 f →
    let h := dHandle f.desc
    s.checkHandle f.tenant .ctx h = 0 → s.live (hIdx h) = some l → l.r.destroy = none → l.r.gate = none →
    ∃ t, exec (.contextDestroy q ix) s = .next t ∧ waitsOnly s t q ix ∧
      t.ctx (hIdx h) = some { l.x with run := some { l.r with destroy := some (q, ix) } } ∧
      (∀ j, j ≠ hIdx h → t.ctx j = s.ctx j) ∧ t = { s with que := t.que, ctxs := t.ctxs })

/-- O11. A started BENT_ASSIGN of a present bent that is no knot, for handle 0 or a handle that passes, waits and changes
nothing else. BENT_CLEAR of such a descriptor, once its die is awake and no loaded plan of the present owner uses the bent,
ends it OK: the bent belongs to the named context (to none for handle 0), its bench and ledger rows are empty, and each of
its arrays has zero planes with tag 0, no load, no passes and an empty event store. Other bents keep their owners. -/
def Obligations.BentsPassToContexts : Prop :=
  (∀ (s : State) (q ix : Nat) (f : Flight), s.started q ix 0x0A f →
    (dHandle f.desc = 0 ∨ s.checkHandle f.tenant .ctx (dHandle f.desc) = 0) → s.dieOk (dField f.desc 0x24 1) = true →
    dField f.desc 0x25 1 < 128 → s.bentIsKnot (dField f.desc 0x24 1) (dField f.desc 0x25 1) = false →
    ∃ t, exec (.bentAssign q ix) s = .next t ∧ waitsOnly s t q ix ∧ t = { s with que := t.que }) ∧
  (∀ (s : State) (q ix : Nat) (f : Flight), s.isUp → s.flight q ix = some f → f.phase = .waiting → dOpcode f.desc = 0x0A →
    let h := dHandle f.desc
    let die := dField f.desc 0x24 1
    let bent := dField f.desc 0x25 1
    (h = 0 ∨ s.checkHandle f.tenant .ctx h = 0) → s.bentUsed die bent = false → s.awake die = true → bent < 128 →
    ∃ t, exec (.bentClear q ix) s = .next t ∧ t.ended q ix 0 0 0 ∧
      t.owner die bent = (if h = 0 then none else some (hIdx h)) ∧ t.bent die bent = Bent.reset ∧
      (∀ d b, bentKey d b ≠ bentKey die bent → t.owner d b = s.owner d b ∧ t.bent d b = s.bent d b) ∧
      (∀ a, a < 4 →
        (t.arr die bent a).plane0 = Plane.zero ∧ (t.arr die bent a).plane1 = Plane.zero ∧ (t.arr die bent a).staged = 0 ∧
        (t.arr die bent a).loading = none ∧ (t.arr die bent a).passes = [] ∧ (t.arr die bent a).store = []) ∧
      t.mem = s.mem ∧ t.ctxs = s.ctxs)

/-- O12. A started PLAN_LOAD whose header, binding table and image are in range and read without poison: an image that passes
checks 3 to 12 of Table 11-8 makes the plan that it describes in the next plan slot, sets the context's primary or fallback
plan by its role, and the descriptor ends OK with its handle; one that fails ends with the code and number of the check, and
makes no plan. A started PLAN_UNLOAD whose handle passes, of a plan that its context does not run, ends OK: the plan is gone
and its slot has the next generation, and no register word changes unless a PLAN_RUN waits for the plan; of the plan that
its context runs it waits for the plan to stop. -/
def Obligations.PlansLoadAndUnload : Prop :=
  (∀ (s : State) (q ix : Nat) (f : Flight) (x : Ctx), s.started q ix 0x0B f →
    let h := dHandle f.desc
    let img := dField f.desc 0x28 8
    let tab := dField f.desc 0x38 8
    let r1 := s.unitRead img 128
    let n := fieldB r1.1.data 0x2C 1
    let m := fieldB r1.1.data 0x2D 1
    let size := fieldB r1.1.data 0x08 8
    let r2 := r1.2.unitRead tab (16 * (n + m))
    let r3 := r2.2.unitRead img size
    s.checkHandle f.tenant .ctx h = 0 → s.ctx (hIdx h) = some x → s.devRange img 128 = true → size ≤ dField f.desc 0x30 8 →
    3440 ≤ size → s.devRange img size = true → s.devRange tab (16 * (n + m)) = true → dField f.desc 0x24 1 ≤ 2 →
    Flag.isPoison r1.1.flags = false → Flag.isPoison r2.1.flags = false → Flag.isPoison r3.1.flags = false →
    s.bindCode f.tenant (syncBinds r2.1.data n) = 0 →
    let check := r3.2.imageCheck (hIdx h) x r3.1.data (memBinds r2.1.data n m)
    let i := s.nextSlot .plan
    ∃ t, exec (.planLoad q ix) s = .next t ∧
      (∀ e, check = .inl e → t.ended q ix e.2 e.1 0 ∧ t.plans = s.plans ∧ t.ctxs = s.ctxs ∧ t.handles = s.handles ∧
        t.fld (diePage .plan f.home) Reg.PLAN_LAST_LOAD 31 24 = e.2 % 256) ∧
      (∀ k, check = .inr k → ∃ p, endsOnly s t q ix 0 0 (s.handleOf .plan i) ∧ t.plan i = some p ∧
        p.ctx = hIdx h ∧ p.role = dField f.desc 0x24 1 ∧ p.img = imgOf r3.1.data ∧ p.sched = k ∧
        p.binds = syncBinds r2.1.data n ∧ p.membinds = memBinds r2.1.data n m ∧ (∀ j, j ≠ i → t.plan j = s.plan j) ∧
        t.ctx (hIdx h) = some (if p.role = 0 then { x with primary := some i }
          else if p.role = 1 then { x with fallback := some i } else x) ∧ (∀ j, j ≠ hIdx h → t.ctx j = s.ctx j) ∧
        t.handles = { s.handles with plan := t.handles.plan }) ∧
      t = { s with regs := t.regs, out := t.out, log := t.log, free := t.free, mem := t.mem, que := t.que, handles := t.handles, ctxs := t.ctxs, plans := t.plans }) ∧
  (∀ (s : State) (q ix : Nat) (f : Flight) (p : PlanObj), s.started q ix 0x0C f →
    let h := dHandle f.desc
    s.checkHandle f.tenant .plan h = 0 → s.plan (hIdx h) = some p →
    ∃ t, exec (.planUnload q ix) s = .next t ∧
      (s.runsPlan p.ctx (hIdx h) = false → t.ended q ix 0 0 0 ∧ t.plan (hIdx h) = none ∧
        (∀ j, j ≠ hIdx h → t.plan j = s.plan j) ∧ (t.slot .plan (hIdx h)).live = false ∧
        (t.slot .plan (hIdx h)).gen = nextGen (s.slot .plan (hIdx h)).gen ∧
        ((∀ g, g ∈ s.que.flights → dOpcode g.desc = 0x0D → g.phase = .waiting → dHandle g.desc ≠ h) →
          pagesKept s t) ∧
        t = { s with regs := t.regs, out := t.out, log := t.log, free := t.free, que := t.que, handles := t.handles, ctxs := t.ctxs, plans := t.plans }) ∧
      (s.runsPlan p.ctx (hIdx h) = true → waitsOnly s t q ix ∧ t = { s with que := t.que, ctxs := t.ctxs }))

/-- O13. A started PLAN_RUN whose handle passes, with no trip latched: in a context that runs no plan, the run begins at its
opening gate in the plan's schedule and the descriptor waits with it; in a context that runs one, the descriptor waits and
nothing else changes. A started PLAN_STOP whose handle passes: in a context that runs no plan it ends OK and changes nothing
else; in one that runs a plan, the stop is recorded with its time and the descriptor waits. -/
def Obligations.PlansStartAndStop : Prop :=
  (∀ (s : State) (q ix : Nat) (f : Flight) (p : PlanObj) (x : Ctx), s.started q ix 0x0D f → s.tripLatched = false →
    let h := dHandle f.desc
    s.checkHandle f.tenant .plan h = 0 → s.plan (hIdx h) = some p → s.ctx p.ctx = some x →
    ∃ t, exec (.planRun q ix) s = .next t ∧ waitsOnly s t q ix ∧
      (x.run = none → ∃ y r, t.ctx p.ctx = some y ∧ y.run = some r ∧ r.plan = hIdx h ∧ r.flight = (q, ix) ∧
        r.sched = p.sched ∧ r.inStep = false ∧ r.gate = none ∧ y.lastPlan = hIdx h ∧ y.lastStrict = p.img.strict ∧
        (∀ j, j ≠ p.ctx → t.ctx j = s.ctx j)) ∧
      (x.run ≠ none → t.ctxs = s.ctxs) ∧ t = { s with que := t.que, ctxs := t.ctxs }) ∧
  (∀ (s : State) (q ix : Nat) (f : Flight) (x : Ctx), s.started q ix 0x0E f →
    let h := dHandle f.desc
    s.checkHandle f.tenant .ctx h = 0 → s.ctx (hIdx h) = some x →
    ∃ t, exec (.planStop q ix) s = .next t ∧
      (x.run = none → endsOnly s t q ix 0 0 0 ∧ t = { s with que := t.que }) ∧
      (∀ r, x.run = some r → waitsOnly s t q ix ∧
        t.ctx (hIdx h) = some { x with run := some { r with stop := r.stop ++ [(q, ix)], stopAt := r.stopAt.or (some s.time) } } ∧
        (∀ j, j ≠ hIdx h → t.ctx j = s.ctx j) ∧ t = { s with que := t.que, ctxs := t.ctxs }))

/-- O14. A started WEIGHT_LOAD that passes the checks of R521, names at most 2,048 residual entries and meets an array of an
awake die with no load and no drain under way, begins: the staged plane takes the tag of the descriptor, the array shows a
load in progress with no row written, and the descriptor waits. The live plane, every other array and all memory are
unchanged. -/
def Obligations.WeightLoadsBegin : Prop :=
  ∀ (s : State) (q ix : Nat) (f : Flight), s.started q ix 0x0F f → (s.weightLoadCode f.tenant f.desc).1 = 0 →
    let die := dField f.desc 0x24 1
    let bent := dField f.desc 0x25 1
    let a := dField f.desc 0x26 1
    let A := s.arr die bent a
    s.awake die = true → A.loading = none → A.draining = false → A.waiting = [] → dField f.desc 0x2C 4 ≤ 2048 →
    ∃ t, exec (.weightLoad q ix) s = .next t ∧ waitsOnly s t q ix ∧
      (t.arr die bent a).staged = 1 ∧ (t.arr die bent a).rows = 0 ∧ (t.arr die bent a).loading = some (weightReq f) ∧
      ((t.arr die bent a).plane (1 - A.live)).tag = dField f.desc 0x28 4 ∧ (t.arr die bent a).live = A.live ∧
      (t.arr die bent a).plane A.live = A.plane A.live ∧
      (∀ d b c, arrKey d b c ≠ arrKey die bent a → t.arr d b c = s.arr d b c) ∧
      t = { s with arrs := t.arrs, que := t.que }

/-- O15. A started REQ_ADMIT whose handles pass, whose admit block is read without poison, meets its limits, is not of zero
length and passes the checks of Table 12-5 ends OK with the handle of the next free entry. That entry is ADMITTED with the
operands of the block, the generation named (the context's current one for 0), length 0, no output, and the present time;
every other entry is unchanged, one entry fewer is free and one more live, and one record of the output queue is reserved. -/
def Obligations.RequestsAreAdmitted : Prop :=
  ∀ (s : State) (q ix : Nat) (f : Flight) (x : Ctx) (c : Queue), s.started q ix 0x20 f →
    let h := dHandle f.desc
    let oq := dField f.desc 0x24 4
    let r := s.unitRead (dField f.desc 0x28 8) 64
    let a := Admit.mk r.1.data
    s.checkHandle f.tenant .ctx h = 0 → s.checkHandle f.tenant .que oq = 0 → 64 ≤ dField f.desc 0x30 8 →
    s.devRange (dField f.desc 0x28 8) 64 = true → s.ctx (hIdx h) = some x → s.queue (hIdx oq) = some c →
    Flag.isPoison r.1.flags = false → s.admitLimits x a = 0 → a.f 0x08 4 ≠ 0 → a.f 0x34 4 ≠ 0 →
    s.admitCode f.tenant (hIdx h) x oq a = 0 →
    let i := s.nextSlot .req
    ∃ t, exec (.reqAdmit q ix) s = .next t ∧ flightEnds s t q ix 0 0 (s.handleOf .req i) ∧
      t.reqEnt i = some (admitEnt a (hIdx h) (if a.f 0x1C 4 = 0 then x.curGen else a.f 0x1C 4) oq s.time) ∧
      (∀ j, j ≠ i → t.reqEnt j = s.reqEnt j) ∧ t.req.free = s.req.free - 1 ∧ t.req.live = s.req.live + 1 ∧
      t.queue (hIdx oq) = some { c with reserved := c.reserved + 1 } ∧ (∀ j, j ≠ hIdx oq → t.queue j = s.queue j) ∧
      t.handles = { s.handles with req := t.handles.req } ∧
      t = { s with regs := t.regs, out := t.out, log := t.log, free := t.free, mem := t.mem, que := t.que, handles := t.handles, req := t.req }

/-- O16. A started REQ_CANCEL of a request that has ended, or REQ_PAUSE of one that is neither working nor resuming, ends OK and
changes nothing else. A REQ_CANCEL of a live request that is paused or spilled, or whose context runs no plan, ends OK with
the request CANCELLED; a REQ_PAUSE of a working or resuming request whose context runs no plan ends OK with it PAUSED or
SPILLED at the present time. In a context that runs a plan the mark is set and the descriptor waits for the gate. -/
def Obligations.RequestsAreCancelledAndPaused : Prop :=
  ∀ (s : State) (q ix : Nat) (f : Flight) (x : ReqEnt),
    let i := hIdx (dHandle f.desc)
    s.checkHandle f.tenant .req (dHandle f.desc) = 0 → s.reqEnt i = some x →
    (s.started q ix 0x21 f →
      let now := decide (x.state = Rq.paused) || decide (x.state = Rq.spilled) || !s.running x.ctx
      ∃ t, exec (.reqCancel q ix) s = .next t ∧
        (x.live = false → endsOnly s t q ix 0 0 0 ∧ t = { s with que := t.que }) ∧
        (x.live = true → now = true → t.ended q ix 0 0 0 ∧
          t.reqEnt i = some { x with state := Rq.cancelled, endCode := 0, cancelPending := false, pausePending := false, spillHold := false, specLen := 0, expireAt := 0 } ∧
          t.req.live = s.req.live - 1 ∧ t.req.ended = s.req.ended + 1) ∧
        (x.live = true → now = false → waitsOnly s t q ix ∧ t.reqEnt i = some { x with cancelPending := true } ∧
          t = { s with que := t.que, req := t.req }) ∧
        (∀ j, j ≠ i → t.reqEnt j = s.reqEnt j)) ∧
    (s.started q ix 0x22 f →
      let can := x.working || decide (x.state = Rq.resuming)
      ∃ t, exec (.reqPause q ix) s = .next t ∧
        (can = false → endsOnly s t q ix 0 0 0 ∧ t = { s with que := t.que }) ∧
        (can = true → s.running x.ctx = false → endsOnly s t q ix 0 0 0 ∧
          t.reqEnt i = some { x with state := if s.resident x then Rq.paused else Rq.spilled, pausePending := false, pauseStamp := s.time, expireAt := if x.ttl = 0 then 0 else s.time + x.ttl * 1000000 } ∧
          t = { s with que := t.que, req := t.req, pools := t.pools }) ∧
        (can = true → s.running x.ctx = true → waitsOnly s t q ix ∧ t.reqEnt i = some { x with pausePending := true } ∧
          t = { s with que := t.que, req := t.req }) ∧
        (∀ j, j ≠ i → t.reqEnt j = s.reqEnt j))

/-- O17. A started REQ_RESUME whose handle passes ends OK: a PAUSED request returns to its working state, a SPILLED one becomes
RESUMING, any other is unchanged. A started REQ_SET ends OK with the fields that its mask names taken from the operands. A
started REQ_DRAFT of n drafts in a sound buffer, for a request that no step in progress has on its roster, ends OK: the
drafts are posted and the result is n where the request is live and its committed length is the base; otherwise the result
is 0. Every other entry is unchanged. -/
def Obligations.RequestsAreResumedSetAndDrafted : Prop :=
  ∀ (s : State) (q ix : Nat) (f : Flight) (x : ReqEnt),
    let i := hIdx (dHandle f.desc)
    s.checkHandle f.tenant .req (dHandle f.desc) = 0 → s.reqEnt i = some x →
    (s.started q ix 0x23 f →
      ∃ t, exec (.reqResume q ix) s = .next t ∧ endsOnly s t q ix 0 0 0 ∧
        t.reqEnt i = some (if x.state = Rq.paused then { x with state := x.workState, expireAt := 0 }
          else if x.state = Rq.spilled then { x with state := Rq.resuming, expireAt := 0 } else x) ∧
        (∀ j, j ≠ i → t.reqEnt j = s.reqEnt j) ∧ t = { s with que := t.que, req := t.req, pools := t.pools }) ∧
    (s.started q ix 0x24 f →
      ∃ t y, exec (.reqSet q ix) s = .next t ∧ endsOnly s t q ix 0 0 0 ∧ t.reqEnt i = some y ∧
        (let m := dField f.desc 0x24 1
         y.priority = (if bitAt m 0 then dField f.desc 0x25 1 % 8 else x.priority) ∧
         y.deadline = (if bitAt m 1 then dField f.desc 0x28 8 else x.deadline) ∧
         y.interval = (if bitAt m 1 then dField f.desc 0x30 4 else x.interval) ∧
         y.ttl = (if bitAt m 2 then dField f.desc 0x34 4 else x.ttl) ∧
         y.spillable = (if bitAt m 3 then bitAt (dField f.desc 0x26 1) 0 else x.spillable) ∧
         y.follow = (if bitAt m 3 then bitAt (dField f.desc 0x26 1) 1 else x.follow) ∧
         y.boundStrict = (if bitAt m 3 then bitAt (dField f.desc 0x26 1) 2 else x.boundStrict) ∧
         y = { x with priority := y.priority, deadline := y.deadline, interval := y.interval, ttl := y.ttl, spillable := y.spillable, follow := y.follow, boundStrict := y.boundStrict }) ∧
        (∀ j, j ≠ i → t.reqEnt j = s.reqEnt j) ∧ t = { s with que := t.que, req := t.req }) ∧
    (s.started q ix 0x25 f →
      let n := dField f.desc 0x24 1
      n ≠ 0 → n * 4 ≤ dField f.desc 0x30 8 → s.devRange (dField f.desc 0x28 8) (n * 4) = true → s.rostered i x = false →
      let fits := x.live && x.length == dField f.desc 0x38 4
      ∃ t, exec (.reqDraft q ix) s = .next t ∧ endsOnly s t q ix 0 0 (if fits then n else 0) ∧
        t.reqEnt i = some (if fits then { x with draftAddr := dField f.desc 0x28 8, draftCount := n } else x) ∧
        (∀ j, j ≠ i → t.reqEnt j = s.reqEnt j) ∧ t = { s with que := t.que, req := t.req })

/-- O18. A started REQ_RELEASE of a request that has ended ends OK: the entry is FREE, its slot has the next generation, one
entry more is free and one fewer ended; of a live request it ends NOT_READY and no entry changes. A started REQ_QUERY of n
entries with a sound destination writes the 128 bytes of each entry of the tenant's own contexts, and zeros for any other,
and ends OK; no entry changes. No byte outside the destination's blocks changes as it reads. -/
def Obligations.RequestsAreReleasedAndQueried : Prop :=
  (∀ (s : State) (q ix : Nat) (f : Flight) (x : ReqEnt), s.started q ix 0x26 f →
    let i := hIdx (dHandle f.desc)
    s.checkHandle f.tenant .req (dHandle f.desc) = 0 → s.reqEnt i = some x →
    ∃ t, exec (.reqRelease q ix) s = .next t ∧
      (x.live = false → endsOnly s t q ix 0 0 0 ∧ t.reqEnt i = none ∧ (∀ j, j ≠ i → t.reqEnt j = s.reqEnt j) ∧
        t.req.free = s.req.free + 1 ∧ t.req.ended = s.req.ended - 1 ∧ (t.slot .req i).live = false ∧
        (t.slot .req i).gen = nextGen (s.slot .req i).gen ∧ t = { s with que := t.que, req := t.req, handles := t.handles }) ∧
      (x.live = true → endsOnly s t q ix Err.notReady 0 0 ∧ wordsKept s t (errWords s reqPage) ∧ queueOnly s t)) ∧
  (∀ (s : State) (q ix : Nat) (f : Flight), s.started q ix 0x27 f →
    let first := dField f.desc 0x20 4
    let n := dField f.desc 0x24 4
    let dst := dField f.desc 0x28 8
    n ≠ 0 → first + n ≤ 65536 → n * 128 ≤ dField f.desc 0x30 8 → s.devRange dst (n * 128) = true →
    ∃ t, exec (.reqQuery q ix) s = .next t ∧ endsOnly s t q ix 0 0 0 ∧
      written s t dst ((upFrom first n).flatMap (fun i => s.queryBytes f.tenant i)) ∧
      t = { s with regs := t.regs, out := t.out, log := t.log, free := t.free, mem := t.mem, que := t.que })

/-- O19. REQUEST_EXPIRY at a tick past the expire_at of a paused or spilled request makes it EXPIRED, moves it from the live to
the ended count and changes no other entry. REQ_ENTRY_READ captures the 32 words of the entry that REQ_ENTRY_SEL selects,
answers the first, and changes nothing else. -/
def Obligations.RequestsExpireAndAreRead : Prop :=
  (∀ (s : State) (i n : Nat) (x : ReqEnt), s.isUp → s.reqEnt i = some x → (x.state = Rq.paused ∨ x.state = Rq.spilled) →
    x.expireAt ≠ 0 → x.expireAt < n →
    ∃ t, exec (.requestExpiry i n) s = .next t ∧
      t.reqEnt i = some { x with state := Rq.expired, endCode := 0, cancelPending := false, pausePending := false, spillHold := false, specLen := 0, expireAt := 0 } ∧
      (∀ j, j ≠ i → t.reqEnt j = s.reqEnt j) ∧ t.req.live = s.req.live - 1 ∧ t.req.ended = s.req.ended + 1 ∧
      t.time = max s.time n) ∧
  (∀ s : State, s.isUp →
    let b := s.entryBytes (s.fld reqPage Reg.REQ_ENTRY_SEL 15 0)
    ∃ t, exec .reqEntryRead s = .next t ∧ (∀ w, w < 32 → t.req.captured[w]? = some (fieldB b (4 * w) 4)) ∧
      t.out.host = .data (fieldB b 0 4) ∧
      t = { s with req := { s.req with captured := t.req.captured }, out := { s.out with host := t.out.host } })

/-- O20. A started WGT_KEY_EXPORT whose handle passes, with a buffer of at least 4,944 bytes in its allowed range, writes the
certificate of the context there and ends OK; no byte outside the certificate's blocks changes as it reads. A started
WGT_VERIFY of a ready generation that is not quarantined ends OK and puts the generation's shards at the front of the pass
of the hasher of each die, the rest following in order. -/
def Obligations.WeightKeysAndVerification : Prop :=
  (∀ (s : State) (q ix : Nat) (f : Flight) (x : Ctx), s.started q ix 0x30 f →
    let h := dHandle f.desc
    let dst := dField f.desc 0x28 8
    s.checkHandle f.tenant .ctx h = 0 → s.ctx (hIdx h) = some x → 4944 ≤ dField f.desc 0x30 8 → s.devRange dst 4944 = true →
    ∃ t, exec (.wgtKeyExport q ix) s = .next t ∧ endsOnly s t q ix 0 0 0 ∧ written s t dst (s.certificate (hIdx h) x) ∧
      t = { s with regs := t.regs, out := t.out, log := t.log, free := t.free, mem := t.mem, que := t.que }) ∧
  (∀ (s : State) (q ix : Nat) (f : Flight) (g : Gen), s.started q ix 0x33 f →
    let h := dHandle f.desc
    s.checkHandle f.tenant .gen h = 0 → s.genAt (hIdx h) = some g → g.quarantined = false → g.readyAt ≠ none →
    s.hashers.length = 4 →
    ∃ t, exec (.wgtVerify q ix) s = .next t ∧ endsOnly s t q ix 0 0 0 ∧
      (∀ d, s.dieOk d = true → t.hasher d = { s.hasher d with
        todo := s.hashable d (hIdx h) g ++ (s.hasher d).todo.filter (fun e => !(s.hashable d (hIdx h) g).contains e) }) ∧
      t = { s with que := t.que, hashers := t.hashers })

/-- O21. A started WGT_REGISTER whose handles pass and whose generation block, manifest and bundle are in range and read without
poison: when checks 2 to 8 of Table 13-6 accept it, the next generation slot holds it, not ready, with the shards and keys
found, and the descriptor waits; when they find nothing for this module it ends OK; when one fails it ends with its code. A
started WGT_SEAL whose handles pass, in a context with a loaded primary plan and no seal under way, whose blocks read
without poison and whose checks pass, takes the next generation slot and becomes the context's seal, and the descriptor
waits. -/
def Obligations.WeightGenerationsBegin : Prop :=
  (∀ (s : State) (q ix : Nat) (f : Flight) (x : Ctx), s.started q ix 0x31 f →
    let h := dHandle f.desc
    let a := dField f.desc 0x28 8
    let r1 := s.unitRead a 128
    let k := GenBlock.mk r1.1.data
    let r2 := r1.2.unitRead k.manifest 128
    let n := fieldB r2.1.data 8 8
    let r3 := r2.2.unitRead k.manifest n
    let r4 := r3.2.unitRead k.bundle k.bundleBuf
    s.checkHandle f.tenant .ctx h = 0 → s.checkHandle f.tenant .chan (dField f.desc 0x24 4) = 0 → s.ctx (hIdx h) = some x →
    128 ≤ dField f.desc 0x30 8 → s.devRange a 128 = true → Flag.isPoison r1.1.flags = false → s.blockRanges k = true →
    128 ≤ k.manifestBuf → Flag.isPoison r2.1.flags = false → 3440 ≤ n → n ≤ k.manifestBuf → Flag.isPoison r3.1.flags = false →
    Flag.isPoison r4.1.flags = false →
    let i := s.nextSlot .gen
    ∃ t, exec (.wgtRegister q ix) s = .next t ∧
      (∀ sh keys, r4.2.regCheck x k r3.1.data r4.1.data = .good sh keys → t.awaits q ix ∧
        (∃ g, t.genAt i = some g ∧ g.ctx = hIdx h ∧ g.isSeal = false ∧ g.flight = (q, ix) ∧ g.shards = sh ∧ g.keys = keys ∧
          g.readyAt = none ∧ g.quarantined = false) ∧ (∀ j, j ≠ i → t.genAt j = s.genAt j)) ∧
      (r4.2.regCheck x k r3.1.data r4.1.data = .none → endsOnly s t q ix 0 0 0 ∧ t.gens = s.gens) ∧
      (∀ code, r4.2.regCheck x k r3.1.data r4.1.data = .bad code → t.ended q ix code 0 0 ∧ t.gens = s.gens)) ∧
  (∀ (s : State) (q ix : Nat) (f : Flight) (x : Ctx) (p : PlanObj), s.started q ix 0x32 f →
    let h := dHandle f.desc
    let r := dField f.desc 0x24 4
    let a := dField f.desc 0x28 8
    let r1 := s.unitRead a 128
    let k := GenBlock.mk r1.1.data
    let r2 := r1.2.unitRead k.opt 104
    let work := fieldB r2.1.data 0x20 8
    let map := shardMapOf p.img.shardMap
    s.checkHandle f.tenant .ctx h = 0 → s.checkHandle f.tenant .ctx r = 0 → s.ctx (hIdx h) = some x → x.sealOp = none →
    s.primaryOf x = some p → 128 ≤ dField f.desc 0x30 8 → s.devRange a 128 = true → Flag.isPoison r1.1.flags = false →
    s.blockRanges k = true → s.devRange k.opt 104 = true → Flag.isPoison r2.1.flags = false →
    r2.2.sealCode k work (fieldB p.img.shardMap 4 4) map = 0 →
    let i := s.nextSlot .gen
    ∃ t g, exec (.wgtSeal q ix) s = .next t ∧ waitsOnly s t q ix ∧ t.genAt i = some g ∧ g.ctx = hIdx r ∧ g.isSeal = true ∧
      g.flight = (q, ix) ∧ g.readyAt = none ∧ (∀ j, j ≠ i → t.genAt j = s.genAt j) ∧
      t.ctx (hIdx h) = some { x with sealOp := some ⟨hIdx r, (q, ix), r1.1.data, work, map, i⟩ } ∧
      (∀ j, j ≠ hIdx h → t.ctx j = s.ctx j) ∧
      t = { s with regs := t.regs, out := t.out, log := t.log, free := t.free, mem := t.mem, que := t.que, handles := t.handles, gens := t.gens, ctxs := t.ctxs })

/-- O22. SHARD_ARRIVAL for a registration that is not ready, of a shard that has not passed: an arrival that meets its tags,
digest and records marks the shard passed; one that does not is counted, and leaves the shard for one more fetch the first
time; the second time the generation is gone and the registration ends DIGEST_MISMATCH. SEAL_COMPLETE of a context's seal
whose receiving context exists: the seal is over; when no record read was poisoned the generation is ready at the present
time and the descriptor ends OK with its handle, and otherwise the generation is gone and the descriptor ends POISON. -/
def Obligations.ShardsArriveAndSealsEnd : Prop :=
  (∀ (s : State) (i shard n : Nat) (data : Bytes) (g : Gen) (r : Shard) (f : Flight), s.isUp → s.genAt i = some g →
    g.isSeal = false → g.readyAt = none → g.shards.find? (fun r => r.shard == shard && !r.passed) = some r →
    s.flight g.flight.1 g.flight.2 = some f →
    let parsed := (r.check (g.key r.shard) data).bind r.records
    ∃ t, exec (.shardArrival i shard data n) s = .next t ∧ t.time = max s.time n ∧
      (parsed ≠ none → (∃ u, u ∈ g.shards ∧ u.shard ≠ r.shard ∧ u.passed = false) →
        ∃ g', t.genAt i = some g' ∧ g'.readyAt = none ∧ { r with passed := true } ∈ g'.shards ∧
          t.rd (wgtPage r.home) Reg.WGT_FETCH_COUNT = satAdd (s.rd (wgtPage r.home) Reg.WGT_FETCH_COUNT) 1) ∧
      (parsed = none → r.fails = 0 → ∃ g', t.genAt i = some g' ∧ { r with fails := 1 } ∈ g'.shards ∧
        t.rd (wgtPage r.home) Reg.WGT_ARRIVAL_FAIL_COUNT = satAdd (s.rd (wgtPage r.home) Reg.WGT_ARRIVAL_FAIL_COUNT) 1) ∧
      (parsed = none → r.fails ≠ 0 → t.genAt i = none ∧ t.ended g.flight.1 g.flight.2 Err.digest 0 0)) ∧
  (∀ (s : State) (c n : Nat) (x y : Ctx) (o : Sealing) (g : Gen) (f : Flight), s.isUp → s.ctx c = some x →
    x.sealOp = some o → s.genAt o.gen = some g → g.ctx = o.recv → g.readyAt = none → s.ctx o.recv = some y →
    s.flight g.flight.1 g.flight.2 = some f →
    let poisoned := Flag.isPoison (((s.at n).unitWrite (GenBlock.mk o.block).table (zeroB (16 * g.planeCount))
      (s.stepTag o.recv) (producer 0 4 0) 0).sealAll o.work (s.stepTag o.recv) (GenBlock.mk o.block).table
      ((s.sealShards (GenBlock.mk o.block) o.work o.map).getD [])).2.1
    ∃ t z, exec (.sealComplete c n) s = .next t ∧ t.ctx c = some z ∧ z.sealOp = none ∧ t.time = max s.time n ∧
      (poisoned = false → (∃ g', t.genAt o.gen = some g' ∧ g'.readyAt = some (max s.time n)) ∧
        t.ended g.flight.1 g.flight.2 0 0 (s.handleOf .gen o.gen)) ∧
      (poisoned = true → t.genAt o.gen = none ∧ t.ended g.flight.1 g.flight.2 Err.poison 0 0))

/-- O23. HASHER_SHARD_CHECK on a die whose hasher runs and has no re-hash pending: the first shard of its pass leaves the pass,
and where its bytes disagree with the manifest or the read was upset, it is to be hashed once more. HASHER_REHASH of such a
shard, upset again: its generation is quarantined, WGT_QUARANTINE_COUNT gains 1, and no re-hash is pending. Other dies'
hashers are unchanged. -/
def Obligations.HasherReadsShards : Prop :=
  (∀ (s : State) (die n : Nat) (upset : Bool) (e : Nat × Nat) (es : List (Nat × Nat)) (g : Gen) (r : Shard), s.isUp →
    s.hashing die = true → (s.hasher die).rehash = none → s.hashTodo die = e :: es → s.hashTarget die e = some (g, r) →
    die < s.hashers.length →
    let rd := (s.unitRead r.base (storedBytes r.plain)).1
    let good := !upset && !Flag.isPoison rd.flags && (r.check (g.key r.shard) rd.data).isSome
    ∃ t, exec (.hasherShardCheck die upset n) s = .next t ∧ t.hasher die = ⟨es, if good then none else some e⟩ ∧
      (∀ d, d ≠ die → t.hasher d = s.hasher d) ∧
      t = { s with time := max s.time n, regs := t.regs, out := t.out, log := t.log, free := t.free, mem := t.mem, hashers := t.hashers }) ∧
  (∀ (s : State) (die n : Nat) (e : Nat × Nat) (g : Gen) (r : Shard), s.isUp → s.hashing die = true →
    (s.hasher die).rehash = some e → s.hashTarget die e = some (g, r) → die < s.hashers.length →
    ∃ t, exec (.hasherRehash die true n) s = .next t ∧ (t.hasher die).rehash = none ∧
      (∀ d, d ≠ die → t.hasher d = s.hasher d) ∧ t.genAt (hIdx e.1) = some { g with quarantined := true } ∧
      (∀ j, j ≠ hIdx e.1 → t.genAt j = s.genAt j) ∧
      t.rd (wgtPage die) Reg.WGT_QUARANTINE_COUNT = satAdd (s.rd (wgtPage die) Reg.WGT_QUARANTINE_COUNT) 1)

/-- O24. A started TP_CHANNEL_CREATE whose block is read without poison and passes the checks of R454 makes the channel that the
block describes in the next channel slot, not paired, sends one frame where a port of its mask is UP, and waits. A started
TP_CHANNEL_DESTROY whose handle passes sends one frame where the channel's port is UP, removes the channel, gives its slot
the next generation and ends OK. Every other channel is unchanged. -/
def Obligations.ChannelsOpenAndClose : Prop :=
  (∀ (s : State) (q ix : Nat) (f : Flight), s.started q ix 0x40 f →
    let a := dField f.desc 0x20 8
    let r := s.unitRead a 64
    let x := newChan f.tenant s.time (q, ix) r.1.data
    64 ≤ dField f.desc 0x28 8 → s.devRange a 64 = true → Flag.isPoison r.1.flags = false → s.chanCode x = 0 →
    let i := s.nextSlot .chan
    ∃ t y, exec (.tpChannelCreate q ix) s = .next t ∧ waitsOnly s t q ix ∧ t.chan i = some y ∧
      y = { x with port := (s.firstPort x.mask).getD x.port, grantTurn := y.grantTurn } ∧
      (∀ j, j ≠ i → t.chan j = s.chan j) ∧
      t.sent.length = s.sent.length + (if (s.firstPort x.mask).isSome then 1 else 0) ∧
      t = { s with regs := t.regs, out := t.out, log := t.log, free := t.free, mem := t.mem, que := t.que, handles := t.handles, chans := t.chans, sent := t.sent }) ∧
  (∀ (s : State) (q ix : Nat) (f : Flight) (x : Channel), s.started q ix 0x41 f →
    let h := dHandle f.desc
    s.checkHandle f.tenant .chan h = 0 → s.chan (hIdx h) = some x →
    ∃ t, exec (.tpChannelDestroy q ix) s = .next t ∧ t.ended q ix 0 0 0 ∧ t.chan (hIdx h) = none ∧
      (∀ j, j ≠ hIdx h → t.chan j = s.chan j) ∧ (t.slot .chan (hIdx h)).live = false ∧
      (t.slot .chan (hIdx h)).gen = nextGen (s.slot .chan (hIdx h)).gen ∧
      t.sent.length = s.sent.length + (if s.portUp x.port then 1 else 0) ∧ t.mem = s.mem)

/-- O25. A started TP_WRITE of n > 0 bytes that passes its checks reads its source, queues the packets of the write, up to 8,192
bytes each, with its operation number, adds the operation to the channel and waits. A started TP_READ queues one READ_REQ
that asks for n bytes at the window offset and adds the operation with its destination. No byte of memory changes as it
reads, and every other channel is unchanged. -/
def Obligations.TransfersBegin : Prop :=
  (∀ (s : State) (q ix : Nat) (f : Flight) (x : Channel), s.started q ix 0x42 f → s.tpCode f (dField f.desc 0x28 8) = 0 →
    let i := hIdx (dHandle f.desc)
    let n := dField f.desc 0x38 8
    s.chan i = some x → n ≠ 0 →
    ∃ t y ps bad, exec (.tpWrite q ix) s = .next t ∧ waitsOnly s t q ix ∧ t.chan i = some y ∧ y.queued = x.queued ++ ps ∧
      ps.length = pktCount n ∧ (∀ p, p ∈ ps → p.kind = 3 ∧ p.op = x.nextOp ∧ p.len ≤ 8192 ∧
        p.vc = (if bitAt (dField f.desc 0x24 1) 0 then 6 else 3)) ∧
      y.ops = x.ops ++ [⟨some (q, ix), x.nextOp, false, 0, 0, bad⟩] ∧ y.nextOp = (x.nextOp + 1) % 2 ^ 32 ∧
      (∀ j, j ≠ i → t.chan j = s.chan j) ∧ blocksKept s t 0 0 ∧
      t = { s with regs := t.regs, out := t.out, log := t.log, free := t.free, mem := t.mem, que := t.que, chans := t.chans }) ∧
  (∀ (s : State) (q ix : Nat) (f : Flight) (x : Channel), s.started q ix 0x43 f → s.tpCode f (dField f.desc 0x28 8) = 0 →
    let i := hIdx (dHandle f.desc)
    let n := dField f.desc 0x38 8
    s.chan i = some x → n ≠ 0 →
    ∃ t y p, exec (.tpRead q ix) s = .next t ∧ waitsOnly s t q ix ∧ t.chan i = some y ∧
      y = { x with queued := x.queued ++ [p], ops := x.ops ++ [⟨some (q, ix), x.nextOp, true, dField f.desc 0x28 8, n, 0⟩], nextOp := (x.nextOp + 1) % 2 ^ 32 } ∧
      p.kind = 4 ∧ p.vc = 1 ∧ p.op = x.nextOp ∧ p.addr = dField f.desc 0x30 8 ∧ p.len = n ∧
      (∀ j, j ≠ i → t.chan j = s.chan j) ∧ t = { s with que := t.que, chans := t.chans })

/-- O26. A WRITE, READ_REQ or READ_RESP packet with good CRC and epochs, next in sequence and within the window, on the UP port
that the channel uses, moves the expected number by one. A WRITE without scribes puts its payload at its offset of the
window. A READ_REQ queues the responses that carry the bytes asked for and changes no byte of memory as it reads. A
READ_RESP without scribes for a read in progress puts its payload at the operation's place, and the last one ends the
operation's descriptor with status OK. -/
def Obligations.DataPacketsAct : Prop :=
  (∀ (s : State) (port n : Nat) (p : Pkt) (x : Channel), s.hears port 3 p x → seqFrom x.expect p.seq = 0 → x.inWindow p = true →
    p.scribes = [] →
    ∃ t y, exec (.ahnazWrite port p n) s = .next t ∧ t.chan p.dst = some y ∧ y.expect = (x.expect + 1) % 2 ^ 32 ∧
      written s t (x.base + p.addr) p.data ∧ (∀ j, j ≠ p.dst → t.chan j = s.chan j) ∧ t.time = max s.time n) ∧
  (∀ (s : State) (port n : Nat) (p : Pkt) (x : Channel), s.hears port 4 p x → seqFrom x.expect p.seq = 0 → x.inWindow p = true →
    ∃ t y ps, exec (.ahnazReadReq port p n) s = .next t ∧ t.chan p.dst = some y ∧ y.expect = (x.expect + 1) % 2 ^ 32 ∧
      y.queued = x.queued ++ ps ∧ ps.length = pktCount p.len ∧ (∀ r, r ∈ ps → r.kind = 5 ∧ r.vc = 2 ∧ r.op = p.op) ∧
      blocksKept s t 0 0 ∧ (∀ j, j ≠ p.dst → t.chan j = s.chan j) ∧ t.time = max s.time n) ∧
  (∀ (s : State) (port n : Nat) (p : Pkt) (x : Channel) (o : TpOp) (w : Nat × Nat) (f : Flight), s.hears port 5 p x →
    seqFrom x.expect p.seq = 0 → p.scribes = [] → x.ops.find? (fun o => o.op == p.op && o.read) = some o →
    x.unacked.filter (covered p.ack) = [] → o.flight = some w → s.flight w.1 w.2 = some f →
    ∃ t y, exec (.ahnazReadResp port p n) s = .next t ∧ t.chan p.dst = some y ∧ y.expect = (x.expect + 1) % 2 ^ 32 ∧
      written s t o.dest (p.data.take o.left) ∧
      ((p.last = true ∨ o.left ≤ p.data.length) → t.ended w.1 w.2 0 (min o.poisoned 0xFFFF) 0) ∧
      (∀ j, j ≠ p.dst → t.chan j = s.chan j) ∧ t.time = max s.time n)

/-- O27. A WRITE, READ_REQ or READ_RESP packet whose CRC fails, whose epochs are not those of a channel and its peer, that is
not next in sequence, or, but for a READ_RESP, that lies outside the window, changes no memory and no expected sequence
number of any channel. -/
def Obligations.BadPacketsAreKeptOut : Prop :=
  ∀ (s : State) (port n : Nat) (p : Pkt) (c : Instr), s.isUp →
    (c = .ahnazWrite port p n ∨ c = .ahnazReadReq port p n ∨ c = .ahnazReadResp port p n) →
    (p.crcOk = false ∨ s.epochsHold p = false ∨
      ∃ x, s.chan p.dst = some x ∧ (seqFrom x.expect p.seq ≠ 0 ∨ x.inWindow p = false)) →
    ∃ t, exec c s = .next t ∧ t.mem = s.mem ∧
      ∀ i x, s.chan i = some x → ∃ y, t.chan i = some y ∧ y.expect = x.expect

/-- O28. On the UP port that the channel uses, with a good CRC: an OPEN that matches a channel without a peer gives it the
sender as peer and is answered by one frame; an OPEN_ACK with good epochs pairs an unpaired channel, and its
TP_CHANNEL_CREATE ends OK with the handle; a CLOSE with good epochs removes the channel and gives its slot the next
generation; an ACK takes the packets that it covers off the unacknowledged list; a NAK does so too, counts a retry and sends
every packet still on the list again; in the last round without progress the channel moves to the next UP port. -/
def Obligations.ControlPacketsAct : Prop :=
  (∀ (s : State) (port n i : Nat) (p : Pkt) (x : Channel), s.isUp → s.portOk port = true → s.portUp port = true → p.kind = 0 →
    p.vc < 8 → p.grantVc < 8 → p.crcOk = true → s.openMatch port p = some i → s.chan i = some x → x.port = port →
    x.peerEpoch = 0 →
    ∃ t y r, exec (.ahnazOpen port p n) s = .next t ∧ t.chan i = some y ∧ y.peer = p.src ∧ y.peerEpoch = p.srcEpoch ∧
      y.peerBytes = p.addr ∧ y.paired = x.paired ∧ t.sent = s.sent ++ [r] ∧ r.pkt.kind = 1 ∧ r.port = port ∧
      (∀ j, j ≠ i → t.chan j = s.chan j) ∧ t.time = max s.time n) ∧
  (∀ (s : State) (port n : Nat) (p : Pkt) (x : Channel) (f : Flight), s.hears port 1 p x → x.paired = false →
    s.flight x.flight.1 x.flight.2 = some f →
    ∃ t y, exec (.ahnazOpenAck port p n) s = .next t ∧ t.chan p.dst = some y ∧ y.paired = true ∧
      t.ended x.flight.1 x.flight.2 0 0 (s.handleOf .chan p.dst) ∧ (∀ j, j ≠ p.dst → t.chan j = s.chan j)) ∧
  (∀ (s : State) (port n : Nat) (p : Pkt) (x : Channel), s.hears port 2 p x →
    ∃ t, exec (.ahnazClose port p n) s = .next t ∧ t.chan p.dst = none ∧ (∀ j, j ≠ p.dst → t.chan j = s.chan j) ∧
      (t.slot .chan p.dst).live = false ∧ (t.slot .chan p.dst).gen = nextGen (s.slot .chan p.dst).gen ∧ t.mem = s.mem) ∧
  (∀ (s : State) (port n : Nat) (p : Pkt) (x : Channel), s.hears port 6 p x →
    ∃ t y, exec (.ahnazAck port p n) s = .next t ∧ t.chan p.dst = some y ∧
      y.unacked = x.unacked.filter (fun r => !covered p.ack r) ∧ y.expect = x.expect ∧ t.mem = s.mem ∧
      (∀ j, j ≠ p.dst → t.chan j = s.chan j)) ∧
  (∀ (s : State) (port n q : Nat) (p : Pkt) (x : Channel), s.hears port 7 p x → x.retryLimit ≤ x.rounds + 1 →
    x.unacked.filter (covered p.ack) = [] → s.nextPort x.mask x.port = some q →
    ∃ t y, exec (.ahnazNak port p n) s = .next t ∧ t.chan p.dst = some y ∧ y.port = q ∧ y.rounds = 0 ∧ y.unacked = x.unacked) ∧
  (∀ (s : State) (port n : Nat) (p : Pkt) (x : Channel), s.hears port 7 p x → x.rounds + 1 < x.retryLimit →
    ∃ t y, exec (.ahnazNak port p n) s = .next t ∧ t.chan p.dst = some y ∧
      y.unacked = x.unacked.filter (fun r => !covered p.ack r) ∧ t.sent.length = s.sent.length + y.unacked.length ∧
      t.rd (portPage port) Reg.PORT_RETRY_COUNT = satAdd (s.rd (portPage port) Reg.PORT_RETRY_COUNT) 1 ∧ t.mem = s.mem ∧
      (∀ j, j ≠ p.dst → t.chan j = s.chan j))

/-- O29. PACKET_SEND of a paired channel on an UP port with a queued packet whose VC holds the credits sends it with the next
sequence number, keeps it as unacknowledged and takes its cells. ACK_TIMER with accepted packets unacknowledged sends one
ACK. RETRY_TIMEOUT of a paired channel without progress for its timeout, with rounds to go, sends every unacknowledged
packet again and counts the round; in the last round the channel moves to the next UP port. OPEN_TIMEOUT of a channel not
paired by its time removes it, ends its TP_CHANNEL_CREATE with TIMEOUT and leaves an error latched on the port's page. -/
def Obligations.ChannelsSendAndTimeOut : Prop :=
  (∀ (s : State) (i n : Nat) (x : Channel) (p : Pkt), s.isUp → s.chan i = some x → x.paired = true → s.portUp x.port = true →
    sendable x x.queued [] = some p →
    ∃ t y r, exec (.packetSend i n) s = .next t ∧ t.chan i = some y ∧ y.queued = dropFirst p x.queued ∧
      y.unacked = x.unacked ++ [{ p with seq := x.nextSeq }] ∧ y.nextSeq = (x.nextSeq + 1) % 2 ^ 32 ∧
      y.txAvail = subNth x.txAvail p.vc (pktCells p) ∧ y.txOut = addNth x.txOut p.vc (pktCells p) ∧
      t.sent = s.sent ++ [r] ∧ r.port = x.port ∧ r.pkt.seq = x.nextSeq ∧ r.pkt.ack = x.expect ∧
      (∀ j, j ≠ i → t.chan j = s.chan j) ∧
      t = { s with time := max s.time n, regs := t.regs, chans := t.chans, sent := t.sent }) ∧
  (∀ (s : State) (i n : Nat) (x : Channel), s.isUp → s.chan i = some x → 0 < x.unackedRx → s.portUp x.port = true →
    ∃ t y r, exec (.ackTimer i n) s = .next t ∧ t.chan i = some y ∧ y.unackedRx = 0 ∧ t.sent = s.sent ++ [r] ∧
      r.pkt.kind = 6 ∧ r.pkt.ack = x.expect ∧ (∀ j, j ≠ i → t.chan j = s.chan j) ∧
      t = { s with time := max s.time n, regs := t.regs, chans := t.chans, sent := t.sent }) ∧
  (∀ (s : State) (i n : Nat) (x : Channel), s.isUp → s.chan i = some x → x.paired = true → x.unacked ≠ [] →
    s.portUp x.port = true → x.progress + x.retryTimeout ≤ n → x.rounds + 1 < x.retryLimit →
    ∃ t y, exec (.retryTimeout i n) s = .next t ∧ t.chan i = some y ∧ y.rounds = x.rounds + 1 ∧ y.progress = n ∧
      y.unacked = x.unacked ∧ t.sent.length = s.sent.length + x.unacked.length ∧
      (∀ j, j ≠ i → t.chan j = s.chan j) ∧
      t = { s with time := max s.time n, regs := t.regs, chans := t.chans, sent := t.sent }) ∧
  (∀ (s : State) (i n q : Nat) (x : Channel), s.isUp → s.chan i = some x → x.paired = true → x.unacked ≠ [] →
    s.portUp x.port = true → x.progress + x.retryTimeout ≤ n → x.retryLimit ≤ x.rounds + 1 → s.nextPort x.mask x.port = some q →
    ∃ t y, exec (.retryTimeout i n) s = .next t ∧ t.chan i = some y ∧ y.port = q ∧ y.rounds = 0 ∧ y.unacked = x.unacked) ∧
  (∀ (s : State) (i n : Nat) (x : Channel) (f : Flight), s.isUp → s.chan i = some x → x.paired = false → x.openBy ≤ n →
    s.flight x.flight.1 x.flight.2 = some f →
    ∃ t, exec (.openTimeout i n) s = .next t ∧ t.chan i = none ∧ (∀ j, j ≠ i → t.chan j = s.chan j) ∧
      endsOnly s t x.flight.1 x.flight.2 Err.timeout 0 0 ∧ (t.slot .chan i).gen = nextGen (s.slot .chan i).gen ∧
      wordsKept s t (errWords s (portPage x.port)) ∧ t.errValid (portPage x.port) = true ∧
      t = { s with time := max s.time n, regs := t.regs, out := t.out, log := t.log, free := t.free, handles := t.handles, que := t.que, chans := t.chans })

/-- O30. LIGHT_LOSS of a lit engine below 15 dBm darkens it, counts it, and moves both of its ports, unless RETIRED or DOWN, to
the state for lost light; LIGHT_RETURN of a dark engine at 16 dBm or more lights it and puts its ports without light into
training. PORT_TRAINING_COMPLETE of a port in training makes it UP, on 7 lanes where a native port has one retired lane.
PORT_RETRAIN of a port that is not RETIRED, and PORT_CLEAR_RETIRED of any port after it has cleared its record of retired
lanes, start training where the port is enabled and lit. A frame that a port does not take is discarded and counted, and
nothing else changes. -/
def Obligations.LightAndTrainingMovePorts : Prop :=
  (∀ (s : State) (e : Nat) (v : Int), s.isUp → s.opticOk e = true → (s.optic e).light = true → v < 1500 →
    ∃ t, exec (.lightLoss e v) s = .next t ∧ t.optic e = ⟨false, v⟩ ∧ (∀ j, j ≠ e → t.optic j = s.optic j) ∧
      (∀ p, p = 2 * e ∨ p = 2 * e + 1 →
        (t.port p).state = (if (s.port p).state = 6 ∨ (s.port p).state = 0 then (s.port p).state else 5)) ∧
      t.rd (opticPage e) Reg.OPT_LIGHT_LOST_COUNT = satAdd (s.rd (opticPage e) Reg.OPT_LIGHT_LOST_COUNT) 1 ∧ t.mem = s.mem) ∧
  (∀ (s : State) (e : Nat) (v : Int), s.isUp → s.opticOk e = true → (s.optic e).light = false → 1600 ≤ v →
    ∃ t, exec (.lightReturn e v) s = .next t ∧ t.optic e = ⟨true, v⟩ ∧ (∀ j, j ≠ e → t.optic j = s.optic j) ∧
      (∀ p, p = 2 * e ∨ p = 2 * e + 1 → (t.port p).state = (if (s.port p).state = 5 then 1 else (s.port p).state)) ∧
      t.mem = s.mem) ∧
  (∀ (s : State) (p : Nat), s.isUp → s.portOk p = true → (s.port p).state = 1 →
    ∃ t, exec (.portTrainingComplete p) s = .next t ∧
      (t.port p).state = (if s.portNative p && retiredLanes (s.port p).retired == 1 then 3 else 2) ∧
      (t.port p).native = s.portNative p ∧ (t.port p).active = 255 - (s.port p).retired % 256 ∧
      (∀ j, j ≠ p → t.port j = s.port j) ∧ t.mem = s.mem) ∧
  (∀ (s : State) (p : Nat), s.takesWrites (portPage p) → (s.port p).state ≠ 6 →
    ∃ t, exec (.portRetrain p) s = .next t ∧
      t.port p = { s.port p with state := if !s.portEnabled p then 0 else if !(s.optic (p / 2)).light then 5 else 1 } ∧
      (∀ j, j ≠ p → t.port j = s.port j) ∧ t.mem = s.mem) ∧
  (∀ (s : State) (p : Nat), s.takesWrites (portPage p) →
    ∃ t, exec (.portClearRetired p) s = .next t ∧
      t.port p = { s.port p with state := (if !s.portEnabled p then 0 else if !(s.optic (p / 2)).light then 5 else 1), retired := 0, badWindows := [], crcWindows := 0 } ∧
      look 0 t.flash.lanes p = 0 ∧ (∀ j, j ≠ p → t.port j = s.port j) ∧ t.mem = s.mem) ∧
  (∀ (s : State) (p : Nat) (data : Bytes) (fcsOk : Bool), s.isUp → s.portOk p = true → s.portUp p = true →
    s.takesFrame p data fcsOk = false →
    ∃ t, exec (.ethernetFrameReceive p data fcsOk) s = .next t ∧
      t.rd (portPage p) Reg.PORT_DISCARD_COUNT = satAdd (s.rd (portPage p) Reg.PORT_DISCARD_COUNT) 1 ∧
      wordsKept s t [(portPage p).key Reg.PORT_DISCARD_COUNT] ∧ t = { s with regs := t.regs })

/-- O31. LANE_LOCK_LOSS of a lane that is not retired, on a port whose receiver runs: the lane is retired, the record of the log
flash shows it, and the port's state is the one that Table 15-3 gives. LANE_ERROR_WINDOW on such a port takes the lanes'
error ratios; each lane whose ratio exceeded the limit in three windows running is retired afterwards, and where no lane is
due and the CRC failures are few the port's state and retired lanes are unchanged. -/
def Obligations.FaultyLanesAreRetired : Prop :=
  (∀ (s : State) (p lane : Nat), s.isUp → s.portRuns p = true → lane < 8 → bitAt (s.port p).retired lane = false →
    ∃ t, exec (.laneLockLoss p lane) s = .next t ∧ (t.port p).retired = (s.port p).retired + 2 ^ lane ∧
      (t.port p).state = laneOutcome (s.port p).native (s.port p).state ((s.port p).retired + 2 ^ lane) ∧
      look 0 t.flash.lanes p = (s.port p).retired + 2 ^ lane ∧ (∀ j, j ≠ p → t.port j = s.port j) ∧ t.mem = s.mem) ∧
  (∀ (s : State) (p n : Nat) (ratios : List Nat), s.isUp → s.portRuns p = true →
    let ws := windowsAfter (s.port p).badWindows ratios
    ∃ t, exec (.laneErrorWindow p ratios n) s = .next t ∧ (t.port p).ber = ratios.take 8 ∧
      (∀ i, i < 8 → 3 ≤ nth 0 ws i → bitAt (t.port p).retired i = true) ∧
      ((∀ i, i < 8 → nth 0 ws i < 3) → n ≤ 1000 → t.port p = { s.port p with badWindows := ws, crcWindows := 0, ber := ratios.take 8 }) ∧
      (∀ j, j ≠ p → t.port j = s.port j) ∧ t.mem = s.mem)

/-- O32. KVP_CENSUS, REQ_CENSUS and PORT_CENSUS, on a page that takes writes: where the identities of the pool, of the cut list
or of the port hold, the state is unchanged; where one fails, the page holds an error code, admission is stopped, the rows
that failed are marked, and no entry, frame, channel or byte of memory changes. -/
def Obligations.CensusesAuditTheirCounts : Prop :=
  (∀ (s : State) (die : Nat), s.takesWrites (diePage .kvp die) →
    ((s.pool die).sound = true → exec (.kvpCensus die) s = .next s) ∧
    ((s.pool die).sound = false → ∃ t, exec (.kvpCensus die) s = .next t ∧ t.errValid (diePage .kvp die) = true ∧
      t.req.stopped = true ∧ bitAt t.snap.consFailed 1 = true ∧ t.req.entries = s.req.entries ∧
      t = { s with regs := t.regs, out := t.out, log := t.log, free := t.free, pools := t.pools, req := t.req, snap := t.snap })) ∧
  (∀ s : State, s.takesWrites reqPage →
    (s.reqRows = [] → exec .reqCensus s = .next s) ∧
    (s.reqRows ≠ [] → ∃ t, exec .reqCensus s = .next t ∧ t.errValid reqPage = true ∧ t.req.stopped = true ∧
      t.req.censusFail = true ∧ (∀ r, r ∈ s.reqRows → bitAt t.snap.consFailed r = true) ∧ t.req.entries = s.req.entries ∧
      t = { s with regs := t.regs, out := t.out, log := t.log, free := t.free, req := t.req, snap := t.snap })) ∧
  (∀ (s : State) (p : Nat), s.takesWrites (portPage p) →
    (s.portSound p = true → exec (.portCensus p) s = .next s) ∧
    (s.portSound p = false → ∃ t, exec (.portCensus p) s = .next t ∧ t.errValid (portPage p) = true ∧
      t.req.stopped = true ∧ bitAt t.snap.consFailed 0 = true ∧ t.req.entries = s.req.entries ∧
      t = { s with regs := t.regs, out := t.out, log := t.log, free := t.free, req := t.req, snap := t.snap }))

/-- O33. ROUTER_SLOT_ENTRY of a living router whose inputs have arrived applies the entry that the running plans give it: its
slot number rises by one, each output carries what the entry selects, a flit on an output that leads to a unit lands there,
and no other router changes. RING_PORT_READ of a READ word in its time that is ready puts the 128 bytes read at the word's
address on the port's input and changes no byte of memory as it reads. RING_PORT_WRITE of a WRITE word that stands alone,
once the router has passed its slot, writes the 128 bytes of the flit that came on the port in that slot at the word's
address, without poison on it. -/
def Obligations.RoutersAndRings : Prop :=
  (∀ (s : State) (die bent : Nat) (bad : List Nat) (reads : List (Nat × Nat)), s.isUp → s.routerReady die bent = true →
    let n := s.slotOf die bent
    let ins := (upFrom 0 6).map (fun p => if poisonedIn bent bad p then badFlit (s.input die bent n reads p) else s.input die bent n reads p)
    let w := s.routerWord die bent n
    ∃ t, exec (.routerSlotEntry die bent bad reads) s = .next t ∧ (t.router die bent).slot = (s.router die bent).slot + 1 ∧
      (t.router die bent).out.head? = some ((upFrom 0 6).map (fun o => sourceFlit ins (s.router die bent).hold (outSel w o))) ∧
      (∀ p f, p ∈ unitOutputs bent → sourceFlit ins (s.router die bent).hold (outSel w p) = some f → f.refused = [] →
        t.landedAt die bent p n = some f) ∧
      (∀ h, h < 8 → (t.router die bent).hold[h]? = some (captured w ins (nth none (s.router die bent).hold h) h)) ∧
      (∀ d b, bentKey d b ≠ bentKey die bent → t.router d b = s.router d b) ∧ t.mem = s.mem ∧ t.bents = s.bents) ∧
  (∀ (s : State) (c die port slot : Nat) (l : Live) (w : Nat), s.isUp → s.ringWord c die port slot = some (l, w) → ringOp w = 1 →
    s.ringFree die port (l.fabSlot slot) = true →
    ∃ t r, exec (.ringPortRead c die port slot true false) s = .next t ∧
      t.stagedAt die (ringBent port) (ringIn port) (l.fabSlot slot + 1) = some r ∧ r.late = false ∧
      (l.ringPlace die port slot w = none →
        let a := (l.membind (ringBinding w)).1 + ringOffset w
        let rd := s.readBlk a 128 (a / 4096)
        r.data = leNat (rd.2.mem.bytes a 128) ∧ r.poison = Flag.isPoison rd.1) ∧ blocksKept s t 0 0) ∧
  (∀ (s : State) (c die port slot : Nat) (l : Live) (w : Nat), s.isUp → s.ringWord c die port slot = some (l, w) →
    ringOp w = 2 → l.ringPlace die port slot w = none →
    let n := l.fabSlot slot
    let x := s.ringCome die port n false
    1 ≤ n → s.ringPast die port (n + 1) = true → Flag.isPoison (flitMarks x) = false →
    ∃ t, exec (.ringPortWrite c die port slot false) s = .next t ∧
      written s t ((l.membind (ringBinding w)).1 + ringOffset w) (leBytes 128 x.data) ∧
      (l.p.img.optimiser = false → t.ctxs = s.ctxs) ∧
      t = { s with regs := t.regs, out := t.out, log := t.log, free := t.free, mem := t.mem, ctxs := t.ctxs })

/-- O34. FABRIC_STALL of a living router in a running fabric stops the fabric, records the router as a knot in a new version of
the knot map, and empties what was in transit. FABRIC_RESUME of a stopped fabric starts it in the slot that the stall fixed,
with every router's count begun anew. BRIDGE_MODULE_LOSS and HOST_LINK_MODULE_LOSS of a working module take it off its link;
the former writes a new version of the knot map and the latter counts it. -/
def Obligations.FabricStallsAndLosesModules : Prop :=
  (∀ (s : State) (die bent port n : Nat), s.isUp → s.dieOk die = true → bent < 128 → port < 6 →
    (s.knotDie die).routers.contains bent = false → s.fab.stalled = false → die < s.fab.knots.dies.length →
    ∃ t, exec (.fabricStall die bent port n) s = .next t ∧ t.fab.stalled = true ∧ t.fab.resumeAt = s.resumeSlot ∧
      t.fab.staged = [] ∧ s.fab.knots.version < t.fab.knots.version ∧ bent ∈ (t.knotDie die).routers ∧
      (s.unmapped = [] → s.sramWorn = [] → t.fab.knots.version = s.fab.knots.version + 1 ∧ ∀ d, d ≠ die → t.knotDie d = s.knotDie d) ∧
      t.time = max s.time n) ∧
  (∀ (s : State) (n : Nat), s.isUp → s.fab.stalled = true →
    ∃ t, exec (.fabricResume n) s = .next t ∧ t.fab.stalled = false ∧ t.fab.base = s.fab.resumeAt ∧ t.fab.routers = [] ∧
      t = { s with time := max s.time n, fab := { s.fab with stalled := false, base := s.fab.resumeAt, routers := [] } }) ∧
  (∀ (s : State) (die m : Nat), s.isUp → s.hasBridge die = true → m < 6 → bitAt (nth 63 s.fab.modules die) m = true →
    die < s.fab.modules.length → die < s.fab.knots.dies.length →
    ∃ t, exec (.bridgeModuleLoss die m) s = .next t ∧ nth 63 t.fab.modules die = nth 63 s.fab.modules die - 2 ^ m ∧
      (t.knotDie die).channels = 4 * popCount (nth 63 t.fab.modules die) / 3 ∧
      t.fab.knots.version = s.fab.knots.version + 1 ∧
      t = { s with regs := t.regs, out := t.out, log := t.log, free := t.free, fab := t.fab, flash := t.flash }) ∧
  (∀ (s : State) (die m : Nat), s.isUp → s.dieOk die = true → m < 4 → bitAt (nth 15 s.fab.hostModules die) m = true →
    die < s.fab.hostModules.length →
    ∃ t, exec (.hostLinkModuleLoss die m) s = .next t ∧ nth 15 t.fab.hostModules die = nth 15 s.fab.hostModules die - 2 ^ m ∧
      t.rd (memPage die) Reg.MEM_HOST_MODULE_LOSS_COUNT = satAdd (s.rd (memPage die) Reg.MEM_HOST_MODULE_LOSS_COUNT) 1 ∧
      t = { s with regs := t.regs, out := t.out, log := t.log, free := t.free, fab := { s.fab with hostModules := t.fab.hostModules } })

/-- O35. PATROL_SCRUB_READ with the patrol on moves the position of an awake stack by one codeword, back to the first after the
last, and where that codeword is usable changes no usable byte as it reads. REGION_SCRUB of a stack with a pending region
whose codewords are all clean ends it and changes nothing else. MAPOUT_COMPLETE of a block whose copy is in progress ends
the copy, records the block in the flash, counts it, and changes no usable byte as it reads. MEM_INJECT of kind 1, 2 or 3 on
a populated codeword of the die changes only that codeword: kind 1 leaves every byte reading as before when it was clean,
kind 2 and 3 leave it unusable. -/
def Obligations.MemoryIsScrubbedAndMappedOut : Prop :=
  (∀ (s : State) (st : Nat) (b : Bool), s.isUp → s.stackOk st = true → s.selfRefresh st = false →
    (s.rd (memPage (st / 2)) Reg.MEM_SCRUB_CFG).getLsbD 31 = true →
    let a := s.patrolPos st
    ∃ t, exec (.patrolScrubRead st b) s = .next t ∧
      t.rd64 (memPage (st / 2)) (posOff st) = (if a + 64 < stackEnd st then a + 64 else stackBase st) ∧
      (s.mem.cwBad (a / 64) = false → ∀ x, s.mem.cwBad (x / 64) = false → t.mem.fixed x = s.mem.fixed x)) ∧
  (∀ (s : State) (st base : Nat) (b : Bool), s.isUp → s.stackOk st = true → s.selfRefresh st = false →
    look none s.mem.regionScrub st = some base → s.regionBad base st = [] →
    ∃ t, exec (.regionScrub st b) s = .next t ∧ look none t.mem.regionScrub st = none ∧
      t = { s with mem := { s.mem with regionScrub := t.mem.regionScrub } }) ∧
  (∀ (s : State) (blk : Nat), s.isUp → s.mem.copying.contains blk = true →
    let pg := memPage (stackOf (blk * 4096) / 2)
    ∃ t, exec (.mapoutComplete blk) s = .next t ∧ blk ∉ t.mem.copying ∧ blk ∈ t.flash.mapouts ∧
      t.rd pg Reg.MEM_MAPOUT_COUNT = satAdd (s.rd pg Reg.MEM_MAPOUT_COUNT) 1 ∧
      (∀ x, s.mem.cwBad (x / 64) = false → t.mem.fixed x = s.mem.fixed x) ∧
      t = { s with regs := t.regs, out := t.out, log := t.log, free := t.free, mem := t.mem, flash := t.flash }) ∧
  (∀ (s : State) (die kind : Nat), s.takesWrites (memPage die) →
    let a := s.rd64 (memPage die) Reg.MEM_INJECT_ADDR / 64 * 64
    s.populated a 64 = true → dieOf a = die → s.stackOk (stackOf a) = true → 1 ≤ kind → kind ≤ 3 →
    ∃ t, exec (.memInject die kind) s = .next t ∧
      (∀ x, x / 64 ≠ a / 64 → t.mem.fixed x = s.mem.fixed x ∧ t.mem.synd (x / 64) = s.mem.synd (x / 64)) ∧
      (s.mem.synd (a / 64) = 0 → kind = 1 → t.mem.cwBad (a / 64) = false ∧ ∀ x, t.mem.fixed x = s.mem.fixed x) ∧
      (s.mem.synd (a / 64) = 0 → kind ≠ 1 → t.mem.cwBad (a / 64) = true) ∧ t = { s with mem := t.mem })

/-- O36. WAKE_STATE_ENTRY of a present die that is not waking and qualifies for a deeper state enters the deepest one, and
counts the entry. PWR_WAKE and WAKE_START of a die below W0 start its wake to W0 at the present time, or turn one to a
shallower state into it. PWR_WAKE_LAT_WRITE stores the latency; a die deeper than it allows starts a wake to the deepest
state allowed. WAKE_COMPLETE of a waking die puts it in its target state. Every other die's state is unchanged. -/
def Obligations.DiesSleepAndWake : Prop :=
  (∀ (s : State) (die n : Nat), s.isUp → s.dieOk die = true → die < s.wake.length → (s.wakeOf die).waking = false →
    (s.wakeOf die).state < s.qualified die →
    ∃ t, exec (.wakeStateEntry die n) s = .next t ∧ t.wakeOf die = { s.wakeOf die with state := s.qualified die } ∧
      (∀ d, d ≠ die → t.wakeOf d = s.wakeOf d) ∧
      t.rd (pwrPage die) Reg.PWR_ENTRY_COUNT = satAdd (s.rd (pwrPage die) Reg.PWR_ENTRY_COUNT) 1 ∧
      t = { s with time := max s.time n, regs := t.regs, out := t.out, log := t.log, free := t.free, ports := t.ports, wake := t.wake }) ∧
  (∀ (s : State) (die : Nat), s.isUp → s.dieOk die = true → die < s.wake.length → ((s.wakeOf die).waking = false ∨ (s.wakeOf die).target ≠ 0) →
    (s.wakeOf die).state ≠ 0 → s.reachable (pwrPage die) = true →
    ∃ t, exec (.pwrWake die) s = .next t ∧
      t.wakeOf die = { s.wakeOf die with waking := true, target := 0,
                                         since := if (s.wakeOf die).waking then (s.wakeOf die).since else s.time } ∧
      (∀ d, d ≠ die → t.wakeOf d = s.wakeOf d) ∧ t = { s with wake := t.wake }) ∧
  (∀ (s : State) (die n : Nat), s.isUp → s.dieOk die = true → die < s.wake.length → ((s.wakeOf die).waking = false ∨ (s.wakeOf die).target ≠ 0) →
    (s.wakeOf die).state ≠ 0 →
    ∃ t, exec (.wakeStart die n) s = .next t ∧
      t.wakeOf die = { s.wakeOf die with waking := true, target := 0,
                                         since := if (s.wakeOf die).waking then (s.wakeOf die).since else max s.time n } ∧
      (∀ d, d ≠ die → t.wakeOf d = s.wakeOf d) ∧ t = { s with time := max s.time n, wake := t.wake }) ∧
  (∀ (s : State) (die : Nat) (v : BitVec 32), s.isUp → s.dieOk die = true → die < s.wake.length →
    s.reachable (pwrPage die) = true →
    let w := s.wakeOf die
    let deep := decide (allowedState die v.toNat < if w.waking then w.target else w.state)
    ∃ t, exec (.pwrWakeLatWrite die v) s = .next t ∧ t.rd (pwrPage die) Reg.PWR_WAKE_LAT = v ∧
      t.wakeOf die = (if deep then { w with waking := true, target := allowedState die v.toNat,
                                             since := if w.waking then w.since else s.time } else w) ∧
      (∀ d, d ≠ die → t.wakeOf d = s.wakeOf d) ∧ wordsKept s t [(pwrPage die).key Reg.PWR_WAKE_LAT] ∧
      t = { s with regs := t.regs, wake := t.wake }) ∧
  (∀ (s : State) (die n : Nat), s.isUp → s.dieOk die = true → die < s.wake.length → (s.wakeOf die).waking = true →
    ∃ t, exec (.wakeComplete die n) s = .next t ∧ t.wakeOf die = ⟨(s.wakeOf die).target, false, 0, 0⟩ ∧
      (∀ d, d ≠ die → t.wakeOf d = s.wakeOf d) ∧ t.mem = s.mem ∧ t.ctxs = s.ctxs ∧ t.time = max s.time n)

/-- O37. POWER_SAMPLE with the standby rail up and no shutdown adds the reading to the energy; above the peak limit it sets the
power demand to 1,300 ps at once. POWER_DEMAND_STEP raises the demand by 25 ps, to 1,300 ps at most, where the input is
above a limit, and lowers it by 25 ps, to 1,000 ps at least, where it is not. The thermal demand is unchanged, and the pacer
is the larger demand. -/
def Obligations.PowerIsPaced : Prop :=
  (∀ (s : State) (w n : Nat) (dies : List Nat), s.boot.phase ≠ 0 → s.shut = none →
    ∃ t, exec (.powerSample w dies n) s = .next t ∧ t.pwr.energy = s.pwr.energy + w ∧ t.pwr.watts = w ∧ t.pwr.dieW = dies ∧
      t.pwr.power = (if s.peakLimit < w then 1300 else s.pwr.power) ∧ t.pwr.thermal = s.pwr.thermal ∧
      (s.peakLimit < w → t.pwr.pacer = max 1300 s.pwr.thermal) ∧ (w ≤ s.peakLimit → t.pwr.pacer = s.pwr.pacer) ∧
      t = { s with time := max s.time n, regs := t.regs, out := t.out, log := t.log, free := t.free, pwr := t.pwr }) ∧
  (∀ (s : State) (a n : Nat), s.boot.phase ≠ 0 → s.shut = none →
    ∃ t, exec (.powerDemandStep a n) s = .next t ∧
      t.pwr.power = (if s.overPower a (max s.time n) then min 1300 (s.pwr.power + 25) else max 1000 (s.pwr.power - 25)) ∧
      t.pwr.thermal = s.pwr.thermal ∧ t.pwr.pacer = max t.pwr.power t.pwr.thermal ∧
      t = { s with time := max s.time n, regs := t.regs, out := t.out, log := t.log, free := t.free, pwr := t.pwr })

/-- O38. THERMAL_DEMAND_STEP with the standby rail up and no shutdown: with any sensor of a present die at 95 degrees C or more
the thermal demand rises by 25 ps, to at most 1,300 ps; with the highest below 93 degrees C it falls by 25 ps, to at least
1,000 ps; between the two it stays. The power demand is unchanged, and where the thermal demand moves the pacer is the
larger demand. INPUT_WARN outside 46 V to 54 V and COOLANT_WARN above 35 degrees C keep the readings and set their warning;
a warning that was not set is counted on the page of every present die. INPUT_WITHIN_RANGE and COOLANT_INLET_NORMAL keep the
readings and clear it. -/
def Obligations.SensorsPaceAndWarn : Prop :=
  (∀ (s : State) (n : Nat), s.boot.phase ≠ 0 → s.shut = none →
    ∃ t, exec (.thermalDemandStep n) s = .next t ∧
      t.pwr.thermal = (if s.anyAbove 1520 then min 1300 (s.pwr.thermal + 25)
        else if s.anyAbove 1488 then s.pwr.thermal else max 1000 (s.pwr.thermal - 25)) ∧
      t.pwr.power = s.pwr.power ∧ (s.anyAbove 1520 = true ∨ s.anyAbove 1488 = false → t.pwr.pacer = max t.pwr.power t.pwr.thermal) ∧
      t = { s with time := max s.time n, regs := t.regs, out := t.out, log := t.log, free := t.free, pwr := t.pwr }) ∧
  (∀ (s : State) (v n : Nat), s.boot.phase ≠ 0 → (v < 4600 ∨ 5400 < v) →
    ∃ t, exec (.inputWarn v n) s = .next t ∧ t.pwr = { s.pwr with voltage := v, inputWarn := true } ∧
      (s.pwr.inputWarn = false → ∀ d, s.dieOk d = true →
        t.rd (pwrPage d) Reg.PWR_INPUT_WARN_COUNT = satAdd (s.rd (pwrPage d) Reg.PWR_INPUT_WARN_COUNT) 1) ∧
      t = { s with time := max s.time n, regs := t.regs, out := t.out, log := t.log, free := t.free, pwr := t.pwr }) ∧
  (∀ (s : State) (v n : Nat), s.boot.phase ≠ 0 → 4600 ≤ v → v ≤ 5400 →
    ∃ t, exec (.inputWithinRange v n) s = .next t ∧
      t = { s with time := max s.time n, pwr := { s.pwr with voltage := v, inputWarn := false } }) ∧
  (∀ (s : State) (a b : Int) (n : Nat), s.boot.phase ≠ 0 → 560 < a →
    ∃ t, exec (.coolantWarn a b n) s = .next t ∧ t.pwr = { s.pwr with inlet := a, outlet := b, coolantWarn := true } ∧
      (s.pwr.coolantWarn = false → ∀ d, s.dieOk d = true →
        t.rd (thmPage d) Reg.THM_COOLANT_WARN_COUNT = satAdd (s.rd (thmPage d) Reg.THM_COOLANT_WARN_COUNT) 1) ∧
      t = { s with time := max s.time n, regs := t.regs, out := t.out, log := t.log, free := t.free, pwr := t.pwr }) ∧
  (∀ (s : State) (a b : Int) (n : Nat), s.boot.phase ≠ 0 → a ≤ 560 →
    ∃ t, exec (.coolantInletNormal a b n) s = .next t ∧
      t = { s with time := max s.time n, pwr := { s.pwr with inlet := a, outlet := b, coolantWarn := false } })

/-- O39. SENSOR_READ with the standby rail up and no shutdown: every sensor of a present die that runs in its wake state takes
its reading, others keep theirs; where a sensor reads 108 degrees C or more for the second time running, the package shuts
down. SENSOR_CROSS_CHECK marks as broken, on each present die above W4, the ring oscillators that differ from the median of
their unbroken neighbours by more than 6 degrees C; no mark goes. -/
def Obligations.SensorsAreReadAndChecked : Prop :=
  (∀ (s : State) (r : List (List Int)) (n : Nat), s.boot.phase ≠ 0 → s.shut = none →
    ∃ t, exec (.sensorRead r n) s = .next t ∧
      (∀ d i, s.dieOk d = true → i < 145 → s.senses d i = true →
        (nth Sensor.reset (nth [] t.sensors d) i).raw = nth (nth Sensor.reset (nth [] s.sensors d) i).raw (nth [] r d) i) ∧
      (∀ d i, s.dieOk d = true → i < 145 → s.senses d i = false →
        nth Sensor.reset (nth [] t.sensors d) i = nth Sensor.reset (nth [] s.sensors d) i) ∧
      (2 ≤ s.boot.phase → ∀ d i, i < 145 → s.senses d i = true →
        (nth Sensor.reset (nth [] s.sensors d) i).hot = true → (nth Sensor.reset (nth [] t.sensors d) i).hot = true → t.shut ≠ none) ∧
      t.time = max s.time n ∧ t.mem = s.mem) ∧
  (∀ (s : State) (n : Nat), s.boot.phase ≠ 0 → s.shut = none → s.sensors.length = 4 →
    ∃ t, exec (.sensorCrossCheck n) s = .next t ∧
      (∀ d i, s.dieOk d = true → (s.wakeOf d).state ≠ 4 → i < 145 →
        (nth Sensor.reset (nth [] t.sensors d) i).broken = ((nth Sensor.reset (nth [] s.sensors d) i).broken ||
          (decide (i < 144) && strays (nth [] s.sensors d) i))) ∧
      (∀ d, (s.wakeOf d).state = 4 → nth [] t.sensors d = nth [] s.sensors d) ∧
      t = { s with time := max s.time n, regs := t.regs, out := t.out, log := t.log, free := s.free + 580, pwr := t.pwr, sensors := t.sensors })

/-- O40. VOLTAGE_SHUTDOWN below 44 V or above 56 V, in a package past standby with no shutdown, begins a shutdown with a record
of the cause and time, and the package leaves bring-up or readiness. SHUTDOWN_STAGE moves it on: at stage 1 the frame dies
lose what they hold and T1 stays, at stage 2 T1 goes, and at the last stage the record is in the flash and not acknowledged.
STANDBY_LOSS leaves only the log flash. -/
def Obligations.PackageShutsDown : Prop :=
  (∀ (s : State) (isOver : Bool) (v n : Nat), 2 ≤ s.boot.phase → s.shut = none → (if isOver then 5600 < v else v < 4400) →
    ∃ t x, exec (.voltageShutdown isOver v n) s = .next t ∧ t.shut = some x ∧ x.stage = 0 ∧ x.start = max s.time n ∧
      x.record.cause = (if isOver then 3 else 2) ∧ x.record.seq = s.flash.tripSeq + 1 ∧ x.record.time = max s.time n ∧
      x.record.voltage = v ∧ t.boot.phase = 1 ∧ t.mem = s.mem ∧ t.flash.trips = s.flash.trips ∧ t.ident.updating = none ∧
      (s.ident.updating = none → t.flash = s.flash)) ∧
  (∀ (s : State) (n : Nat) (x : Shutdown), s.shut = some x →
    ∃ t, exec (.shutdownStage n) s = .next t ∧
      (x.stage = 0 → t = { s with time := max s.time n, shut := some { x with stage := 1 } }) ∧
      (x.stage = 1 → t.shut = some { x with stage := 2 } ∧ t.mem = s.mem ∧ t.flash = s.flash ∧ t.que = QueSt.reset ∧
        t.ctxs = [] ∧ t.bents = [] ∧ t.pwr = s.pwr) ∧
      (x.stage = 2 → t.shut = some { x with stage := 3 } ∧ t.mem = Mem.reset ∧ t.flash = s.flash) ∧
      (3 ≤ x.stage → t.shut = none ∧ t.flash.trips = s.flash.trips ++ [x.record] ∧ t.flash.tripSeq = x.record.seq ∧
        t.flash.acked = false ∧ t.mem = s.mem)) ∧
  (∀ s : State, s.boot.phase ≠ 0 →
    ∃ t, exec .standbyLoss s = .next t ∧ t.boot = Boot.reset ∧ t.regs = [] ∧ t.mem = Mem.reset ∧ t.que = QueSt.reset ∧
      t.ctxs = [] ∧ t.shut = none ∧ t.log.ring = s.log.ring ∧ t.pending = s.pending ∧
      (s.ident.updating = none → t.flash.images = s.flash.images ∧ (s.shut = none → t.flash = s.flash)))

/-- O41. A read of a page's register word by the host answers the word and clears its read-to-clear bits; no other word changes.
A read through a bent page's window answers the words of T0, or a load fault where one is uncorrectable. A write answers as
Table 02-6 says; a misaligned one, or one to an absent register, changes nothing; on the pages of the weight and scribe
units and of the engines and bents a writable bit takes its value and a write-one-to-clear bit is cleared. err_log_clear
empties the error latch. A write of PAGE_IRQ_STAT clears the bits that it names. Unmasking a message entry sends the message
that it holds back. -/
def Obligations.RegistersAreReadAndWritten : Prop :=
  (∀ (s : State) (a : Nat) (p : Page) (off : Nat), s.hostReaches a → a % 4 = 0 → targetOf a = .reg p off →
    s.pagePresent p = true → (s.wakeOf p.die).state = 0 → (p.blk ≠ .req ∨ off ≠ Reg.REQ_ENTRY_DATA) →
    (p.blk ≠ .bent ∨ off < 0x40) →
    ∀ (t0 : Nat) (x : SramRead), ∃ t, exec (.rcCounterRead a ⟨4, t0, x⟩) s = .next t ∧ t.out.host = .data (s.word p off).toNat ∧
      (∀ d, regWord p.blk off = some d → t.rd p off = s.rd p off &&& ~~~(BitVec.ofNat 32 d.rc)) ∧ wordsKept s t [p.key off] ∧
      t = { s with regs := t.regs, out := { s.out with host := t.out.host } }) ∧
  (∀ (s : State) (a n t0 : Nat) (p : Page) (off : Nat), s.hostReaches a → aligned a n = true →
    targetOf a = .reg p off → p.blk = .bent → 0x40 ≤ off → s.pagePresent p = true → (s.wakeOf p.die).state = 0 →
    let w := fun (i : Nat) => if i < 0x200000 then ((s.bent p.die p.unit).word (i / 4)).toNat else 0
    ∀ x : SramRead, ∃ t, exec (.rcCounterRead a ⟨n, t0, x⟩) s = .next t ∧ sramNoted s t (ledgPage p.die p.unit) [x] ∧
      t.out.host = (if sramLost x then .loadFault else .data (w t0 + (if n = 8 then w (t0 + 4) * 2 ^ 32 else 0))) ∧
      (x = .clean → t = { s with out := { s.out with host := t.out.host } }) ∧
      t = { s with regs := t.regs, out := t.out, log := t.log, free := t.free, sramFixed := t.sramFixed, sramWorn := t.sramWorn }) ∧
  (∀ (s : State) (a n : Nat) (v : BitVec 64), s.hostReaches a →
    ∃ t, exec (.registerWrite a n v) s = .next t ∧ t.out.host = s.writeResp a n ∧
      (aligned a n = false ∨ (n = 4 ∧ s.writeResp a n = .ignored) → t = { s with out := { s.out with host := t.out.host } })) ∧
  (∀ (s : State) (a : Nat) (v : BitVec 64) (p : Page) (off : Nat) (d : WordDef), s.hostReaches a → a % 4 = 0 →
    targetOf a = .reg p off → s.takesWrites p → [Block.scrb, .wgt, .att, .grad, .shim, .ledg].contains p.blk = true →
    0x40 ≤ off → regWord p.blk off = some d → is64 p.blk off = false → is64 p.blk (off - 4) = false →
    let x := BitVec.setWidth 32 v
    let old := s.rd p off
    let rw := BitVec.ofNat 32 d.rw
    let w1c := BitVec.ofNat 32 d.w1c
    ∃ t, exec (.registerWrite a 4 v) s = .next t ∧ t.out.host = .written ∧
      t.rd p off = ((old &&& ~~~(rw ||| w1c)) ||| (x &&& rw) ||| (old &&& w1c &&& ~~~x)) ∧ wordsKept s t [p.key off] ∧
      t = { s with regs := t.regs, out := { s.out with host := t.out.host } }) ∧
  (∀ (s : State) (p : Page), s.takesWrites p →
    ∃ t, exec (.errLogClear p) s = .next t ∧ t.errValid p = false ∧ t.rd p Reg.PAGE_ERR_CODE = 0 ∧
      t.rd p Reg.PAGE_ERR_INFO = 0 ∧ t.rd64 p Reg.PAGE_ERR_ADDR = 0 ∧
      wordsKept s t [p.key Reg.PAGE_ERR_CODE, p.key Reg.PAGE_ERR_INFO, p.key Reg.PAGE_ERR_ADDR, p.key (Reg.PAGE_ERR_ADDR + 4)] ∧
      t = { s with regs := t.regs }) ∧
  (∀ (s : State) (p : Page) (v : W32) (d : WordDef), s.takesWrites p → regWord p.blk Reg.PAGE_IRQ_STAT = some d →
    ∃ t, exec (.pageIrqStatWrite p v) s = .next t ∧
      (∀ i, i < 32 → bitAt d.w1c i = true →
        (t.rd p Reg.PAGE_IRQ_STAT).getLsbD i = ((s.rd p Reg.PAGE_IRQ_STAT).getLsbD i && !v.getLsbD i)) ∧
      wordsKept s t (irqWords s p) ∧ t = { s with regs := t.regs, out := t.out }) ∧
  (∀ (s : State) (die e : Nat), s.hostReaches (windowBase + die * windowBytes) → s.dieOk die = true → e < 2048 →
    let held := s.msixMasked die e && s.pba die e
    ∃ t, exec (.msixUnmask die e) s = .next t ∧ t.msixMasked die e = false ∧
      t.pba die e = (s.pba die e && !held) ∧
      t.out = { s.out with msix := s.out.msix ++ (if held then [⟨die, e, (s.msixWord die e 0).toNat + (s.msixWord die e 1).toNat * 2 ^ 32, (s.msixWord die e 2).toNat⟩] else []) } ∧
      wordsKept s t [msixKey die e 3, pbaKey die e] ∧ t = { s with regs := t.regs, out := t.out })

/-- O42. A host read of populated bytes of an awake die, all of them in sound codewords, answers the bytes and changes nothing
else; one that meets an unusable codeword answers poison; one of an unpopulated range is a load fault. A host write of
populated bytes answers that it was written: the bytes read back where their codewords were usable, each block that it
touches becomes unsealed, and every other byte reads as before. The mailbox answers each of the four commands of Table 02-1
and refuses any other (what three of them tell is a free value: the spec gives none). -/
def Obligations.HostReachesMemory : Prop :=
  (∀ (s : State) (a n : Nat), s.hostReaches a → n ≠ 0 → s.populated a n = true → (s.wakeOf (dieOf a)).state < 3 →
    ∃ t, exec (.hostMemRead a n) s = .next t ∧
      t.out.host = (if (cwsOf a n).any (fun c => s.mem.cwBad c) then .poisoned else .data (leNat (s.mem.view a n))) ∧
      ((∀ c, c ∈ cwsOf a n → s.mem.synd c = 0) → t = { s with out := { s.out with host := t.out.host } })) ∧
  (∀ (s : State) (a n : Nat), s.hostReaches a → (n = 0 ∨ s.populated a n = false) →
    exec (.hostMemRead a n) s = .next { s with out := { s.out with host := .loadFault } }) ∧
  (∀ (s : State) (a : Nat) (bs : Bytes), s.hostReaches a → bs ≠ [] → s.populated a bs.length = true →
    (s.wakeOf (dieOf a)).state < 3 →
    ∃ t, exec (.hostMemWrite a bs) s = .next t ∧ t.out.host = .written ∧
      ((∀ c, c ∈ cwsOf a bs.length → s.mem.cwBad c = false) → ∀ i, i < bs.length → t.mem.fixed (a + i) = bs.getD i 0) ∧
      (∀ b, b ∈ blksOf a bs.length → t.mem.scribeOf b = hostScribe) ∧
      (∀ b, b ∉ blksOf a bs.length → t.mem.scribeOf b = s.mem.scribeOf b) ∧ bytesKept s t a bs.length ∧ memOnly s t) ∧
  (∀ (s : State) (die op : Nat), s.hostReaches (windowBase + die * windowBytes) → s.dieOk die = true →
    (∃ x, exec (.identifyMemoryDevice die) s =
      .next { s with free := s.free + 1, out := { s.out with mbox := s.out.mbox ++ [⟨die, 0, [x]⟩] } }) ∧
    (∃ x, exec (.getPartitionInfo die) s =
      .next { s with free := s.free + 1, out := { s.out with mbox := s.out.mbox ++ [⟨die, 1, [x]⟩] } }) ∧
    (∃ x, exec (.getHealthInfo die) s =
      .next { s with free := s.free + 1, out := { s.out with mbox := s.out.mbox ++ [⟨die, 2, [x]⟩] } }) ∧
    exec (.getPoisonList die) s =
      .next { s with out := { s.out with mbox := s.out.mbox ++ [⟨die, 3, (look [] s.mem.poison die).map (fun c => 64 * c)⟩] } } ∧
    exec (.mailboxUnsupported die op) s = .next { s with out := { s.out with mbox := s.out.mbox ++ [⟨die, 4, [op]⟩] } })

/-- O43. Where a bent's ledger stream meets its word in a step slot, the package being up: before the word's turn (an earlier
word, a partial due at its row or a flit that it takes is missing) nothing changes. In its turn OPEN_ZERO and OPEN_LOAD put
zeros or the source into the row and open it in a new epoch; ADD_IN adds the source column by column, and the row stays open
or closed; READ for the fabric delivers the row's flits, with the row's flags and pass count, to the L input of its router;
an SRAM word with two wrong bits poisons what it gives and is latched; STORE to a bench address copies whole blocks, with
their flags where no correction is outstanding, and STORE to the fabric puts their flits on the same input; CLOSE closes the
row and keeps its values. Rows and bench words that an operation does not name are unchanged, and so is every other bent. -/
def Obligations.LedgerWordsAct : Prop :=
  ∀ (s : State) (die bent slot w : Nat) (l : Live), s.isUp → bent < 128 → s.bentWord 2 die bent 0 slot = some (l, w) →
    let b := s.bent die bent
    let k := ledgRow w
    let at0 := rowAddr k / 4
    (s.ledgTurn die bent l slot w = false → ∀ (c : Instr) (x y z : SramRead), (c = .openZero die bent slot ∨ c = .openLoad die bent slot x y z ∨
      c = .addIn die bent slot x y ∨ c = .ledgerRead die bent slot x ∨ c = .ledgerStore die bent slot ∨ c = .ledgerClose die bent slot) →
      exec c s = .next s) ∧
    (s.ledgTurn die bent l slot w = true →
    (bits w 63 60 = 1 → ∃ t, exec (.openZero die bent slot) s = .next t ∧
      (t.bent die bent).row k = (b.row k).fresh 0 ∧ (∀ i, i < 512 → (t.bent die bent).word (at0 + i) = 0) ∧
      (∀ j, j ≠ k → (t.bent die bent).row j = b.row j) ∧
      (∀ i, i < at0 ∨ at0 + 512 ≤ i → (t.bent die bent).word i = b.word i) ∧
      bentsKept s t die bent ∧ t = { s with bents := t.bents }) ∧
    (bits w 63 60 = 2 → ∀ x y z : SramRead,
      let rs := [ledgSram w x, ledgSram w y, z]
      let src := (s.ledgSrc die bent l slot (ledgAddr w)).seen rs
      ∃ t, exec (.openLoad die bent slot x y z) s = .next t ∧ sramNoted s t (ledgPage die bent) rs ∧
      (t.bent die bent).row k = (((b.row k).fresh src.flags).addPasses src.count).1 ∧
      (∀ i, i < 512 → (t.bent die bent).word (at0 + i) = BitVec.ofNat 32 (nth 0 src.vals i)) ∧
      (∀ j, j ≠ k → (t.bent die bent).row j = b.row j) ∧
      (∀ i, i < at0 ∨ at0 + 512 ≤ i → (t.bent die bent).word i = b.word i) ∧
      bentsKept s t die bent ∧
      t = { s with regs := t.regs, out := t.out, log := t.log, free := t.free, bents := t.bents, sramFixed := t.sramFixed, sramWorn := t.sramWorn }) ∧
    (bits w 63 60 = 3 → ∀ x y : SramRead,
      let rs := [ledgSram w x, y]
      let src := (s.ledgSrc die bent l slot (ledgAddr w)).seen rs
      ∃ t, exec (.addIn die bent slot x y) s = .next t ∧ sramNoted s t (ledgPage die bent) rs ∧
      (∀ i, i < 512 → (t.bent die bent).word (at0 + i) =
        BitVec.ofNat 32 (fAdd (b.word (at0 + i)).toNat (nth 0 src.vals i)).bits) ∧
      ((t.bent die bent).row k).isOpen = (b.row k).isOpen ∧ ((t.bent die bent).row k).epoch = (b.row k).epoch ∧
      ((t.bent die bent).row k).passCount = min ((b.row k).passCount + src.count) 511 ∧
      (∀ j, j ≠ k → (t.bent die bent).row j = b.row j) ∧
      (∀ i, i < at0 ∨ at0 + 512 ≤ i → (t.bent die bent).word i = b.word i) ∧
      bentsKept s t die bent ∧
      (Flag.isPoison src.flags = false → t.ctxs = s.ctxs) ∧
      t = { s with regs := t.regs, out := t.out, log := t.log, free := t.free, bents := t.bents, ctxs := t.ctxs,
                   sramFixed := t.sramFixed, sramWorn := t.sramWorn }) ∧
    (bits w 63 60 = 4 → ∀ x : SramRead, ∃ t, exec (.ledgerRead die bent slot x) s = .next t ∧ sramNoted s t (ledgPage die bent) [x] ∧
      (ledgAddr w = fabAddr →
        (∀ i, i < 16 → (bentKey die bent, 4, l.fabSlot slot + i,
          nth (⟨0, false, false, 0, 0, 0, []⟩ : Flit) (flitsOf ((b.row k).deliver ||| sramFlags x) (b.row k).passCount 16 (b.rowVec k)) i) ∈ t.fab.staged) ∧
        t.fab = { s.fab with staged := t.fab.staged, given := (bentKey die bent, 4, l.fabSlot slot) :: s.fab.given }) ∧
      (ledgAddr w ≠ fabAddr → t.fab = s.fab) ∧
      (t.bent die bent).rows = b.rows ∧ (t.bent die bent).bench = b.bench ∧ bentsKept s t die bent ∧
      t = { s with regs := t.regs, out := t.out, log := t.log, free := t.free, bents := t.bents, fab := t.fab,
                   sramFixed := t.sramFixed, sramWorn := t.sramWorn }) ∧
    (bits w 63 60 = 5 →
      let a := ledgAddr w
      let n := ledgBlocks w
      ∃ t, exec (.ledgerStore die bent slot) s = .next t ∧
      (a / 4096 + n ≤ 256 →
        (∀ i, i < 1024 * n → (t.bent die bent).word (a / 4096 * 1024 + i) = b.word (rowAddr (2 * (k / 2)) / 4 + i)) ∧
        ((∀ j, (b.row j).outstanding = 0) → (t.bent die bent).rows = b.rows ∧
          ∀ j, j < n → look 0 (t.bent die bent).bflags (a / 4096 + j) = b.deliverFlags (k / 2 + j))) ∧
      (a = fabAddr → (t.bent die bent).bench = b.bench ∧ ((∀ j, (b.row j).outstanding = 0) → ∀ i, i < 32 * n →
        (bentKey die bent, 4, l.fabSlot slot + i, nth (⟨0, false, false, 0, 0, 0, []⟩ : Flit)
          (b.blockFlits (s.stepTag l.c) (producer die 0 bent) (k / 2 + i / 32)) (i % 32)) ∈ t.fab.staged) ∧
        t.fab = { s.fab with staged := t.fab.staged, given := (bentKey die bent, 4, l.fabSlot slot) :: s.fab.given }) ∧
      (a ≠ fabAddr → t.fab = s.fab) ∧
      t.rd (diePage .scrb die) Reg.SCRB_FORMED_COUNT = satAdd (s.rd (diePage .scrb die) Reg.SCRB_FORMED_COUNT) n ∧
      bentsKept s t die bent ∧
      t = { s with regs := t.regs, out := t.out, bents := t.bents, fab := t.fab }) ∧
    (bits w 63 60 = 6 → ∃ t, exec (.ledgerClose die bent slot) s = .next t ∧
      (t.bent die bent).row k = { b.row k with isOpen := false, flags := (b.row k).flags ||| (if (b.row k).outstanding = 0 then 0 else Flag.bound) } ∧
      (∀ j, j ≠ k → (t.bent die bent).row j = b.row j) ∧ (t.bent die bent).bench = b.bench ∧
      ((b.row k).outstanding ≠ 0 → t.rd (ledgPage die bent) Reg.LEDG_EARLY_CLOSE_COUNT =
        satAdd (s.rd (ledgPage die bent) Reg.LEDG_EARLY_CLOSE_COUNT) 1) ∧
      bentsKept s t die bent ∧
      t = { s with regs := t.regs, out := t.out, bents := t.bents }))

/-- O44. On pages that take writes: a bench word is stored unless its tile holds an open row, which drops and counts it;
ARR_CTRL.retire retires a working array with cause 4, enters it in a new knot map at once where no context owns its bent
(and leaves the map for the owner's next gate otherwise), and leaves a retired array; CAL_CTRL.recal on a bent without a
running recalibration raises a host trigger, counts it and marks its arrays' figures stale; a share that R308 refuses leaves
every register but the error and interrupt words, any other is stored; the reissue mark is set and cleared; a write of
PLAN_ESC adds one request to the selected context. Nothing else changes. -/
def Obligations.SoftwareActsOnUnits : Prop :=
  (∀ (s : State) (die bent a : Nat) (v : W32), s.takesWrites (unitPage .bent die bent) → a % 4 = 0 → a < 0x200000 →
    let b := s.bent die bent
    let held := decide (ledgBase ≤ a) && b.held ((a - ledgBase) / 0x10000)
    ∃ t, exec (.ledgerHostWrite die bent a v) s = .next t ∧
      (held = true → t.rd (ledgPage die bent) Reg.LEDG_HOST_DROP_COUNT =
          satAdd (s.rd (ledgPage die bent) Reg.LEDG_HOST_DROP_COUNT) 1 ∧
        wordsKept s t ((ledgPage die bent).key Reg.LEDG_HOST_DROP_COUNT :: irqWords s (ledgPage die bent)) ∧
        t = { s with regs := t.regs, out := t.out }) ∧
      (held = false → (t.bent die bent).word (a / 4) = v ∧ (∀ i, i ≠ a / 4 → (t.bent die bent).word i = b.word i) ∧
        (t.bent die bent).rows = b.rows ∧ (∀ d c, bentKey d c ≠ bentKey die bent → t.bent d c = s.bent d c) ∧
        t = { s with bents := t.bents })) ∧
  (∀ (s : State) (die bent a : Nat), s.takesWrites (arrPage .arr die bent a) →
    ∃ t, exec (.arrRetire die bent a) s = .next t ∧
      ((s.arr die bent a).retired ≠ 0 → t = s) ∧
      ((s.arr die bent a).retired = 0 → t.arr die bent a = { s.arr die bent a with retired := 4 } ∧
        t.arrIsKnot die bent a = true ∧
        (s.owner die bent = none → (s.knotDie die).arrays.contains (4 * bent + a) = false →
          t.fab.knots.version = s.fab.knots.version + 1 ∧
          (die < s.fab.knots.dies.length → (t.knotDie die).arrays.contains (4 * bent + a) = true)) ∧
        (s.owner die bent ≠ none → t.fab = s.fab ∧ t.flash = s.flash) ∧
        (∀ d b c, arrKey d b c ≠ arrKey die bent a → t.arr d b c = s.arr d b c) ∧
        t = { s with regs := t.regs, out := t.out, log := t.log, free := t.free, arrs := t.arrs, fab := t.fab, flash := t.flash })) ∧
  (∀ (s : State) (die bent : Nat), s.takesWrites (calPage die bent) →
    let k := s.calBent die bent
    ∃ t, exec (.recal die bent) s = .next t ∧
      (k.running.isSome = true ∨ s.bentIsKnot die bent = true → t = s) ∧
      (k.running = none → s.bentIsKnot die bent = false →
        (t.calBent die bent).trigger = (if bitAt k.trigger 2 then k.trigger else k.trigger + 4) ∧ (∀ a, a < 4 → (t.arr die bent a).cal.stale = true) ∧
        t.rd (calPage die bent) Reg.CAL_TRIG_HOST_COUNT = satAdd (s.rd (calPage die bent) Reg.CAL_TRIG_HOST_COUNT) 1 ∧
        t = { s with regs := t.regs, out := t.out, arrs := t.arrs, cals := t.cals })) ∧
  (∀ (s : State) (die off : Nat) (v : W64), s.takesWrites (fabPage die) → isShareOff off = true →
    ∃ t, exec (.shareWrite die off v) s = .next t ∧
      (s.shareRefused die off v.toNat = true → t.errValid (fabPage die) = true ∧
        (t.rd (fabPage die) Reg.PAGE_IRQ_STAT).getLsbD 2 = true ∧ wordsKept s t (errWords s (fabPage die)) ∧ pagesOnly s t) ∧
      (s.shareRefused die off v.toNat = false → t.rd64 (fabPage die) off = v.toNat ∧
        wordsKept s t [(fabPage die).key off, (fabPage die).key (off + 4)] ∧ t = { s with regs := t.regs })) ∧
  (∀ s : State, s.takesWrites (fabPage 0) →
    exec .knotReissue s = .next { s with flash := { s.flash with reissue := true } } ∧
    exec .knotCancelReissue s = .next { s with flash := { s.flash with reissue := false } }) ∧
  (∀ (s : State) (die : Nat), s.takesWrites (diePage .plan die) →
    let c := s.fld (diePage .plan die) Reg.PLAN_CTX_SEL 9 0
    let e := s.fld (diePage .plan die) Reg.PLAN_ESC_SEL 9 0
    ∃ t u, exec (.planEscAdd die) s = .next t ∧ exec (.planEscRemove die) s = .next u ∧
      (∀ x, s.ctx c = some x → t.ctx c = some { x with escPend := x.escPend ++ [(e, 1, s.time)] } ∧
        u.ctx c = some { x with escPend := x.escPend ++ [(e, 0, s.time)] }) ∧
      (∀ j, j ≠ c → t.ctx j = s.ctx j ∧ u.ctx j = s.ctx j) ∧ t = { s with ctxs := t.ctxs } ∧ u = { s with ctxs := u.ctxs })

/-- O45. With the package up, a write to THM_TRIP_ACK of any present die. A value that differs from THM_TRIP_SEQ, or any sensor
at 85 degrees C or more: the write is ignored (the trip record, the sequence number and the latch stay) and NOT_READY is
latched on that THM page, where no error is latched yet. Otherwise the latch is clear on every die and a record is logged. -/
def Obligations.TripAcknowledgementIsGuarded : Prop :=
  ∀ (s : State) (die : Nat) (v : W32), s.isUp → s.dieOk die = true →
    ∃ t, exec (.thmTripAck die v) s = .next t ∧
      (v.toNat ≠ s.flash.tripSeq ∨ s.anyAbove 1360 = true → t.flash = s.flash ∧ t.errValid (thmPage die) = true ∧
        (s.errValid (thmPage die) = false → t.fld (thmPage die) Reg.PAGE_ERR_CODE 7 0 = Err.notReady) ∧
        wordsKept s t (errWords s (thmPage die)) ∧ pagesOnly s t) ∧
      (v.toNat = s.flash.tripSeq → s.anyAbove 1360 = false → t.tripLatched = false ∧
        (∀ d, (t.word (thmPage d) Reg.THM_TRIP).getLsbD 31 = false) ∧ t.log.nextSeq = s.log.nextSeq + 1 ∧
        t.flash = { s.flash with acked := true } ∧
        t = { s with regs := t.regs, out := t.out, log := t.log, free := t.free, flash := t.flash })

/-- O46. A write of SNAP_CTRL.request, with or without clear, on a SNAP page that takes writes. With no snapshot busy, the
snapshot is accepted: its sequence number is the previous one plus 1, and its named slot is the first multiple of 64 at
least 4,096 slots beyond FAB_SLOT of F0 (during a stall, beyond the slot in which the fabric resumes). While one is busy the
write changes nothing but SNAP_REFUSED_COUNT, which adds 1. -/
def Obligations.SoftwareRequestsSnapshots : Prop :=
  ∀ (s : State) (clear : Bool), s.takesWrites snapPage →
    ∃ t, exec (.snapRequest clear) s = .next t ∧
      (s.snap.busy = false →
        t.snap = { s.snap with busy := true, seq := (s.snap.seq + 1) % 2 ^ 32, slot := t.snap.slot, clear := clear, waiters := [.software] } ∧
        t.snap.slot % 64 = 0 ∧
        (let from0 := (if s.fab.stalled then s.fab.resumeAt else s.slotOf 0 0) + 4096
         from0 ≤ t.snap.slot ∧ t.snap.slot < from0 + 64) ∧
        wordsKept s t [snapPage.key Reg.SNAP_REQUEST_COUNT] ∧ t = { s with regs := t.regs, snap := t.snap }) ∧
      (s.snap.busy = true → t.snap = s.snap ∧
        t.rd snapPage Reg.SNAP_REFUSED_COUNT = satAdd (s.rd snapPage Reg.SNAP_REFUSED_COUNT) 1 ∧
        wordsKept s t [snapPage.key Reg.SNAP_REFUSED_COUNT] ∧ t = { s with regs := t.regs })

/-- O47. A write of LOG_CONS_CTRL, and the periodic audit while it is configured, ask for a snapshot without clear, or wait for
the busy one. A page that may copy takes the live value into each shadow (FAB_SLOT: the named slot), with the items that a
queued unit's inputs still hold before the marker added, and the sequence number; with clear, its read-to-clear counters
become zero, and without it every live register stays. When every page has copied, the snapshot ends and the audit runs:
with every identity held it passes, and a resumption lets admission go on; otherwise admission stops and the rows that
failed are marked. A snapshot that times out ends without an audit. -/
def Obligations.SnapshotsAreCopiedAndAudited : Prop :=
  (∀ s : State, s.takesWrites logPage →
    ∃ t u, exec .consAudit s = .next t ∧ exec .consResume s = .next u ∧
      (s.snap.busy = true → t = { s with snap := { s.snap with queued := s.snap.queued ++ [.audit] } } ∧
        u = { s with snap := { s.snap with queued := s.snap.queued ++ [.resume] } }) ∧
      (s.snap.busy = false → t.snap.busy = true ∧ t.snap.clear = false ∧ t.snap.waiters = [.audit] ∧
        u.snap = { t.snap with waiters := [.resume] } ∧ t.snap.seq = (s.snap.seq + 1) % 2 ^ 32 ∧
        t = { s with regs := t.regs, snap := t.snap } ∧ u = { s with regs := u.regs, snap := u.snap })) ∧
  (∀ (s : State) (n : Nat), s.isUp → s.fwRuns = true →
    ∃ t, exec (.periodicAudit n) s = .next t ∧
      (s.fld logPage Reg.LOG_AUDIT_CFG 15 0 = 0 → t = s) ∧
      (s.fld logPage Reg.LOG_AUDIT_CFG 15 0 ≠ 0 → t.time = max s.time n ∧
        (s.snap.busy = true → t.snap = { s.snap with queued := s.snap.queued ++ [.periodic] }) ∧
        (s.snap.busy = false → t.snap.busy = true ∧ t.snap.clear = false ∧ t.snap.waiters = [.periodic]) ∧
        t = { s with time := t.time, regs := t.regs, snap := t.snap })) ∧
  (∀ (s : State) (p : Page) (late : List (Nat × Nat)), s.isUp → s.mayCopy p = true →
    let items := fun (o : Nat) => if scheduled p.blk then 0 else sumL ((late.filter (fun x => x.1 == o)).map (fun x => x.2))
    ∃ t, (if scheduled p.blk then exec (.snapshotCopy p) s else exec (.snapshotMarker ⟨p, late⟩) s) = .next t ∧
      (∀ o, o ∈ shadowOffs p.blk → t.rd p (o + 0x800) = s.shadowNow p o + BitVec.ofNat 32 (items o)) ∧ t.rd p Reg.PAGE_SNAP_SEQ = BitVec.ofNat 32 s.snap.seq ∧
      (s.snap.clear = true → ∀ d, d ∈ p.blk.words → t.rd p d.off &&& BitVec.ofNat 32 d.rc = 0 ∨ d.off = Reg.PAGE_SNAP_SEQ) ∧
      (s.snap.clear = false →
        wordsKept s t (p.key Reg.PAGE_SNAP_SEQ :: (shadowOffs p.blk).map (fun o => p.key (o + 0x800)) ++ late.map (fun x => p.key (x.1 + 0x800)))) ∧
      t = { s with regs := t.regs }) ∧
  (∀ (s : State) (n : Nat), s.isUp → s.snap.busy = true → s.allCopied = true → s.snap.queued = [] →
    let resume := s.snap.waiters.any isResume
    ∃ t, exec (.snapshotComplete n) s = .next t ∧ t.snap.busy = false ∧ t.snap.lastComplete = true ∧ t.snap.waiters = [] ∧
      t.snap.doneTime = max s.time n ∧
      t.rd logPage Reg.LOG_AUDIT_COUNT = satAdd (s.rd logPage Reg.LOG_AUDIT_COUNT) 1 ∧
      (s.badRows = [] → t.snap.lastPass = true ∧ t.req.stopped = (s.req.stopped && !resume) ∧
        (resume = true → t.snap.consFailed = 0) ∧ (resume = false → t.snap.consFailed = s.snap.consFailed)) ∧
      (s.badRows ≠ [] → t.snap.lastPass = false ∧ t.req.stopped = true ∧
        (∀ r, r ∈ s.badRows → bitAt t.snap.consFailed r = true) ∧
        t.rd logPage Reg.LOG_AUDIT_FAIL_COUNT = satAdd (s.rd logPage Reg.LOG_AUDIT_FAIL_COUNT) 1) ∧
      t.mem = s.mem ∧ t.ctxs = s.ctxs ∧ t.que = s.que) ∧
  (∀ (s : State) (n : Nat), s.isUp → s.snap.busy = true → s.allCopied = false → s.snap.queued = [] →
    ∃ t, exec (.snapshotTimeout n) s = .next t ∧ t.snap.busy = false ∧ t.snap.lastComplete = false ∧ t.snap.waiters = [] ∧
      t.snap.doneTime = max s.time n ∧ t.snap.consFailed = s.snap.consFailed ∧ t.snap.lastPass = s.snap.lastPass ∧
      t = { s with time := t.time, regs := t.regs, out := t.out, free := t.free, snap := t.snap })

/-- O48. While the firmware runs and no command waits for a snapshot, each monitor command adds 1 to LOG_MON_CMD_COUNT and
prints one reply. peek and poke of a register act as the host's access does; dump prints 1,024 words of T1; temp, log,
knots, cal, link, census and id print the registers and records that Table 18-1 names; what is printed about a page carries
its owner tag; snap, audit and resume ask for a snapshot and answer at its end; baud sets one of six rates and refuses any
other; restart without confirm does nothing, and with it starts the package at step 1. A break returns the line to 115,200
baud. -/
def Obligations.MonitorCommandsAnswer : Prop :=
  (∀ s : State, s.isUp → s.fwRuns = true → s.monBusy = false →
    let s1 := s.bump logPage Reg.LOG_MON_CMD_COUNT
    let owned := fun (u : State) (p : Page) (vs : List Nat) (code : Nat) =>
      ({ u with out := { u.out with mon := u.out.mon ++ [⟨vs, code, (u.rd p Reg.PAGE_OWNER).toNat⟩] } } : State)
    let reply := fun (u : State) (vs : List Nat) (code : Nat) => ({ u with out := { u.out with mon := u.out.mon ++ [⟨vs, code, 0⟩] } } : State)
    let asHost := fun (u : State) (p : Page) (vs : List Nat) => owned { u with out := { u.out with host := s.out.host } } p vs 0
    (∀ (a n : Nat) (p : Page) (off : Nat), targetOf a = .reg p off →
      (aligned a n = false → exec (.monPeek a n) s = .next (owned s1 p [] Err.length) ∧
        ∀ v, exec (.monPoke a n v) s = .next (owned s1 p [] Err.length)) ∧
      (aligned a n = true → s.hostReaches a → s.pagePresent p = true → (s.wakeOf p.die).state = 0 →
        ((p.blk ≠ .bent ∨ off < 0x40) → ∃ t u, exec (.monPeek a n) s = .next t ∧ exec (.rcCounterRead a ⟨n, 0, .clean⟩) s1 = .next u ∧
          ∀ v, u.out.host = .data v → t = asHost u p [v]) ∧
        (∀ v, ∃ t u, exec (.monPoke a n v) s = .next t ∧ exec (.registerWrite a n v) s1 = .next u ∧ t = { u with out := t.out } ∧
          t.out = { u.out with host := t.out.host, mon := u.out.mon ++ [⟨[], 0, (u.rd p Reg.PAGE_OWNER).toNat⟩] }))) ∧
    (∀ a, a % 4096 = 0 → s.populated a 4096 = true → (s.wakeOf (dieOf a)).state < 3 →
      (∀ c, c ∈ cwsOf a 4096 → s.mem.synd c = 0) →
      exec (.monDump a) s = .next (reply s1 ((upFrom 0 1024).map (fun i => leNat (s.mem.bytes (a + 4 * i) 4))) 0)) ∧
    (∀ d, s.dieOk d = true → ∃ vs, exec (.monTemp (some d)) s = .next (owned s1 (thmPage d) vs 0) ∧
      vs.take 3 = [(s1.word (thmPage d) Reg.THM_MAX).toNat, (s1.word (thmPage d) Reg.THM_DEMAND).toNat,
        (s1.word (thmPage d) Reg.THM_COOLANT).toNat]) ∧
    (∀ n, 1 ≤ n → n ≤ 1024 → exec (.monLog n) s =
      .next (reply s1 ((s.log.ring.drop (s.log.ring.length - n)).map (fun r => leNat r.bytes)) 0)) ∧
    (∃ vs, exec .monKnots s = .next (reply s1 (s.fab.knots.version :: vs) 0) ∧ vs.length = 169) ∧
    (∀ d b, s.dieOk d = true → b < 128 → (s.wakeOf d).state = 0 → exec (.monCal d b) s =
      .next (owned s1 (calPage d b) ((upFrom 0 16).map (fun i => (s1.word (calPage d b) (Reg.CAL_RESID + 4 * i)).toNat)) 0)) ∧
    (∀ q, s.portOk q = true → (s.wakeOf (q / 8)).state = 0 → ∃ t vs, exec (.monLink (some q)) s = .next t ∧
      t.out = (owned s (portPage q) ((s1.word (portPage q) Reg.PORT_STATUS).toNat :: vs) 0).out ∧ vs.length = 16 ∧
      wordsKept s t [logPage.key Reg.LOG_MON_CMD_COUNT, (opticPage (q / 2)).key Reg.OPT_LANE_SEL] ∧
      t = { s with regs := t.regs, out := t.out }) ∧
    (∃ vs, exec .monCensus s = .next (owned s1 reqPage ([s.req.free, s.req.live, s.req.ended] ++ vs) 0)) ∧
    (∀ clear, ∃ t, exec (.monSnap clear) s = .next t ∧
      t.snap = (if s.snap.busy then { s.snap with waiters := s.snap.waiters ++ [.monSnap] }
        else { s.snap with busy := true, seq := (s.snap.seq + 1) % 2 ^ 32, slot := s.namedSlot, clear := clear, waiters := [.monSnap] }) ∧
      t = { s with regs := t.regs, snap := t.snap }) ∧
    (∃ t u, exec .monAudit s = .next t ∧ exec .monResume s = .next u ∧
      (s.snap.busy = true → t.snap.queued = s.snap.queued ++ [.monAudit] ∧ u.snap.queued = s.snap.queued ++ [.monResume]) ∧
      (s.snap.busy = false → t.snap.busy = true ∧ t.snap.waiters = [.monAudit] ∧ u.snap.busy = true ∧
        u.snap.waiters = [.monResume]) ∧
      t = { s with regs := t.regs, snap := t.snap } ∧ u = { s with regs := u.regs, snap := u.snap }) ∧
    (∀ r, exec (.monBaud r) s = .next (if [115200, 230400, 460800, 921600, 1500000, 3000000].contains r
      then { reply s1 [] 0 with snap := { s.snap with baud := r } } else reply s1 [] Err.length)) ∧
    exec .monId s = .next (reply s1 ([leNat s.ident.moduleId, s.ident.romVersion] ++ s.ident.versions) 0) ∧
    exec (.monRestart false) s = .next (reply s1 [] Err.length) ∧
    (∃ t, exec (.monRestart true) s = .next t ∧ t.out = (reply s [] 0).out ∧ t.boot = { Boot.reset with phase := 2, step := 1 } ∧
      t.snap.baud = 115200 ∧ t.mem = Mem.reset ∧ t.que = QueSt.reset ∧ t.ctxs = [] ∧
      (s.ident.updating = none → t.flash = s.flash) ∧ t.pending = s.pending ∧ t.log.ring.length + t.log.buffer.length ≤ s.log.ring.length + s.log.buffer.length)) ∧
  (∀ s : State, s.boot.phase ≠ 0 → exec .monitorBreak s = .next { s with snap := { s.snap with baud := 115200 } })

/-- O49. POWER_ON at 46 V or more from the state without power begins step 1 with the flash and the log as they were; below it
nothing changes. Each bring-up step that succeeds notes its end and starts the next: step 2 starts the firmware, or ROM
recovery where no image is accepted; step 5 leaves every byte of T1 zero; step 7 clears the reissue mark and releases a host
die whose image was accepted; step 8 makes the package ready. ROM recovery takes a firmware image that verifies. An update
and a report begin when software asks, and their ends leave a result. The oldest record of the log buffer goes to the ring. -/
def Obligations.PackageComesUp : Prop :=
  (∀ (s : State) (v : Nat), s.boot.phase = 0 → ∃ t, exec (.powerOn v) s = .next t ∧ (v < 4600 → t = s) ∧
    (4600 ≤ v → t.boot = { Boot.reset with phase := 2, step := 1 } ∧ t.pwr = { State.reset.pwr with voltage := v } ∧
      t.flash = s.flash ∧ t.log = s.log ∧ t.mem = Mem.reset ∧ t.regs = [] ∧ t.time = 0 ∧ t.pending = s.pending)) ∧
  (∀ (s : State) (env : BootEnv), s.boot.phase = 2 → s.boot.failed = false → s.shut = none → env.ok = true →
    ∃ t, exec (.bootStepEnd env) s = .next t ∧
      (t.boot.failed = false → t.boot.step = (if s.boot.step = 8 then 0 else s.boot.step + 1) ∧
        t.boot.stepEnd = s.boot.stepEnd.set (s.boot.step - 1) (max s.time env.lateTime / 1000)) ∧
      (s.boot.step = 1 ∨ s.boot.step = 4 → t = { s with time := t.time, boot := t.boot } ∧ t.boot.failed = false) ∧
      (s.boot.step = 2 → (s.accepted 1 ≠ none → t.boot.mcState = 1 ∧ t.boot.failed = false) ∧
        (s.accepted 1 = none → t.boot.mcState = 2 ∧ t.boot.failed = true ∧ t.boot.failCode = Err.signature ∧
          t.boot.step = 2)) ∧
      (s.boot.step = 5 → t.mem.t1 = [] ∧ t.mem.chk = [] ∧ t.mem.scribe = [] ∧ (env.badStacks = [] → t.boot.failed = false)) ∧
      (s.boot.step = 7 → t.flash.reissue = false ∧ (s.boot.hostOk = true → t.boot.hostReleased = true) ∧ t.mem = s.mem) ∧
      (s.boot.step = 8 → t.ready = true ∧ t.mem = s.mem ∧ t.flash = s.flash ∧ t.boot.failed = false)) ∧
  (∀ (s : State) (img : Bytes), s.boot.mcState = 2 → s.boot.phase = 2 → ∃ t, exec (.romRecoveryImage img) s = .next t ∧
    (flashOk 1 img = false → t = s) ∧ t = { s with flash := { s.flash with images := t.flash.images } } ∧
    (flashOk 1 img = true → s.flash.images.length = 3 → (nth [] s.flash.images 0).length = 2 →
      (t.image 1 0 = imgWhole img ∨ t.image 1 1 = imgWhole img) ∧ t.image 2 = s.image 2 ∧ t.image 3 = s.image 3)) ∧
  (∀ (s : State) (ty : Nat), s.takesWrites secPage → s.fwRuns = true →
    ∃ t u, exec (.secUpdate ty) s = .next t ∧ exec .secAttest s = .next u ∧
      t = { s with ident := { s.ident with updating := if s.ident.updating.isSome then s.ident.updating else some (ty % 4, s.rd64 secPage Reg.SEC_UPDATE_ADDR) } } ∧
      u = { s with ident := { s.ident with attesting := if s.ident.attesting.isSome then s.ident.attesting else some (s.rd64 secPage Reg.SEC_ATTEST_BLOCK, s.time) } }) ∧
  (∀ (s : State) (n ty a : Nat), s.fwRuns = true → s.shut = none → s.ident.updating = some (ty, a) →
    ∃ t, exec (.updateEnd n) s = .next t ∧ t.ident = { s.ident with updating := none } ∧ t.time = max s.time n ∧
      (t.fld secPage Reg.SEC_UPDATE 23 16 = 0 ∨ t.fld secPage Reg.SEC_UPDATE 23 16 = Err.signature) ∧
      (flashOk ty (s.imageAt a) = false → t.flash = s.flash ∧ t.fld secPage Reg.SEC_UPDATE 23 16 = Err.signature) ∧
      (flashOk ty (s.imageAt a) = true → s.highest ty ≤ imgVersion (s.imageAt a) → t.fld secPage Reg.SEC_UPDATE 23 16 = 0 ∧
        (1 ≤ ty → s.flash.images.length = 3 → (∀ l, l ∈ s.flash.images → l.length = 2) →
          t.image ty (1 - bits s.boot.copyB (ty - 1) (ty - 1)) = imgWhole (s.imageAt a) ∧
          (∀ k c, 1 ≤ k → (k ≠ ty ∨ c ≠ 1 - bits s.boot.copyB (ty - 1) (ty - 1)) → t.image k c = s.image k c))) ∧
      t = { s with time := t.time, regs := t.regs, out := t.out, ident := t.ident, flash := t.flash }) ∧
  (∀ (s : State) (n a when' : Nat), s.isUp → s.ident.attesting = some (a, when') → s.populated a 64 = true →
    let b := s.mem.view a 64
    let h := fieldB b 0x20 4
    let dst := fieldB b 0x28 8
    let code := if h = 0 then 0 else s.checkOwn .ctx h
    let es := if h = 0 then [] else s.attestEntries (hIdx h)
    let len := 208 + 40 * es.length + 3312
    ∃ t, exec (.reportWritten n) s = .next t ∧ t.ident = { s.ident with attesting := none } ∧ t.time = max s.time n ∧
      (code ≠ 0 → t.fld secPage Reg.SEC_ATTEST 23 16 = code ∧ t.mem = s.mem) ∧
      (code = 0 → fieldB b 0x30 8 < len → t.fld secPage Reg.SEC_ATTEST 23 16 = Err.length ∧ t.mem = s.mem) ∧
      (code = 0 → len ≤ fieldB b 0x30 8 → s.populated dst len = true → t.fld secPage Reg.SEC_ATTEST 23 16 = 0 ∧
        written s t dst (s.report (b.take 32) h es (max s.time n))) ∧
      t = { s with time := t.time, regs := t.regs, out := t.out, log := t.log, free := t.free, mem := t.mem, ident := t.ident }) ∧
  (∀ s : State, s.boot.phase ≠ 0 → s.fwRuns = true → ∃ t, exec .logRecordWrite s = .next t ∧ (s.log.buffer = [] → t = s) ∧
    (∀ r rs, s.log.buffer = r :: rs → s.log.ring.length < ringRecords →
      t.log = { s.log with buffer := rs, ring := s.log.ring ++ [r] } ∧
      t.rd logPage Reg.LOG_RECORD_COUNT = satAdd (s.rd logPage Reg.LOG_RECORD_COUNT) 1 ∧
      wordsKept s t [logPage.key Reg.LOG_RECORD_COUNT] ∧ t = { s with regs := t.regs, log := t.log }))

/-- O50. A vector word whose record is valid and finds the unit free runs: NOP writes nothing, and ADD, SUB, MUL, FMA, SCALE,
ROWSCALE, SILU, GELU, SWIGLU, EXP, RECIP, RSQRT, ATT_RESCALE and CONVERT write, in the format of the record, the function of
Table 06-16 of each element of their operands (for FP8 with the scale of each segment); a result for the fabric goes on the
bent's L port. A word whose operands from the fabric have not come waits. Every other bench byte, the rows but for flags,
and every other bent are as before; the unit is busy for the record's slots. A word that may not run, and one whose
operation is reserved, is dropped and counted. -/
def Obligations.VectorElementsAreComputed : Prop :=
  vecDoes Instr.vecNop 0x00 (fun _ _ _ => ([], [])) ∧
  (∀ (s : State) (die bent slot op : Nat) (sram : SramRead) (l : Live) (r : VRec), s.vecMeets die bent slot op l r → opReserved op = true →
    ∃ t, exec (.vecNop die bent slot sram) s = .next t ∧ vecDrops s t die bent (l.fabSlot slot)) ∧
  vecDoes Instr.vecAdd 0x01 (storesOf (fun x b r => List.zipWith fAdd (r.valsA b x) (r.valsB b x))) ∧
  vecDoes Instr.vecSub 0x02 (storesOf (fun x b r => List.zipWith fSub (r.valsA b x) (r.valsB b x))) ∧
  vecDoes Instr.vecMul 0x03 (storesOf (fun x b r => List.zipWith fMul (r.valsA b x) (r.valsB b x))) ∧
  vecDoes Instr.vecFma 0x04 (storesOf (fun x b r =>
    List.zipWith (fun p e => fFma p.1 p.2 e) (List.zip (r.valsA b x) (r.valsB b x)) (b.vals r.aux 4 r.count))) ∧
  vecDoes Instr.vecScale 0x05 (storesOf (fun x b r => (r.valsA b x).map (fun a => fFma a (r.im 0) (r.im 1)))) ∧
  vecDoes Instr.vecRowscale 0x06 (storesOf (fun x b r =>
    List.zipWith (fun a g => fMul (fMul a (r.im 0)).bits g) (r.valsA b x) (r.valsB b x))) ∧
  vecDoes Instr.vecSilu 0x07 (storesOf (fun x b r => (r.valsA b x).map vSilu)) ∧
  vecDoes Instr.vecGelu 0x08 (storesOf (fun x b r => (r.valsA b x).map vGelu)) ∧
  vecDoes Instr.vecSwiglu 0x09 (storesOf (fun x b r => List.zipWith vSwiglu (r.valsA b x) (r.valsB b x))) ∧
  vecDoes Instr.vecExp 0x0A (storesOf (fun x b r => (r.valsA b x).map (fun a => vExp a (r.im 0)))) ∧
  vecDoes Instr.vecRecip 0x0B (storesOf (fun x b r => (r.valsA b x).map vRecip)) ∧
  vecDoes Instr.vecRsqrt 0x0C (storesOf (fun x b r => (r.valsA b x).map (fun a => vRsqrt a (r.im 0)))) ∧
  vecDoes (fun d b n x => Instr.vecAttRescale d b n x none) 0x0D (storesOf (fun x b r =>
    List.zipWith (fun d a => fFma d (r.im 0) a) (b.vals r.d 4 r.count) (r.valsA b x))) ∧
  vecDoes Instr.vecConvert 0x0E (storesOf (fun x b r => (r.valsA b x).map (fun a => (⟨a, false, false⟩ : FRes))))

/-- O51. SUM, SUMSQ, MEANVAR, MAX, MIN, ABSMAX and DOT write the 16 bytes of the state that the lanes and the tree of R191 give,
MERGE those of the tree over its states, from bench or from the fabric by their index; each is counted in LEDG_REDUCE_COUNT.
ADAMW writes parameters, moments and cleared gradients, and with the skip word set clears the gradients only; REPACK_COL
writes a column and its scale, PACK one nibble of each byte, MX_REBLOCK the re-blocked elements and their scale. Every other
bench byte and bent is as before (the values of a MERGE that names no reduction are free). -/
def Obligations.VectorReductionsAndRepacking : Prop :=
  vecDoes Instr.vecSum 0x10 (fun x b r => stateBytes 0x10 (reduce 0x10 (r.valsA b x) (r.valsA b x))) ∧
  vecDoes Instr.vecSumsq 0x11 (fun x b r =>
    let a := (r.valsA b x).map (fun v => if r.scan && !isFin32 v then 0 else v)
    stateBytes 0x11 (reduce 0x11 a a)) ∧
  vecDoes Instr.vecMeanvar 0x12 (fun x b r => stateBytes 0x12 (reduce 0x12 (r.valsA b x) (r.valsA b x))) ∧
  vecDoes Instr.vecMax 0x13 (fun x b r => stateBytes 0x13 (reduce 0x13 (r.valsA b x) (r.valsA b x))) ∧
  vecDoes Instr.vecMin 0x14 (fun x b r => stateBytes 0x14 (reduce 0x14 (r.valsA b x) (r.valsA b x))) ∧
  vecDoes Instr.vecAbsmax 0x15 (fun x b r => stateBytes 0x15 (reduce 0x15 (r.valsA b x) (r.valsA b x))) ∧
  vecDoes Instr.vecDot 0x16 (fun x b r => stateBytes 0x16 (reduce 0x16 (r.valsA b x) (r.valsB b x))) ∧
  vecDoes Instr.vecMerge 0x17 (fun x b r => if opReduction (r.im 0) then stateBytes (r.im 0) (mergeTree (r.im 0) (log2Up r.partsN)
    ((upFrom 0 r.partsN).map (fun i => if r.aFab then stateIn x.1 (r.im 0) i else stateAt b (r.im 0) (r.a + 16 * i))))
    else ((vecMergeOut x b r).dst, [])) ∧
  (∀ (c : Nat → Nat → Nat → SramRead → Instr) (op : Nat), (c, op) ∈ [(Instr.vecSum, 0x10), (Instr.vecSumsq, 0x11), (Instr.vecMeanvar, 0x12),
      (Instr.vecMax, 0x13), (Instr.vecMin, 0x14), (Instr.vecAbsmax, 0x15), (Instr.vecDot, 0x16), (Instr.vecMerge, 0x17)] →
    ∀ (s : State) (die bent slot : Nat) (sram : SramRead) (l : Live) (r : VRec), s.vecMeets die bent slot op l r → r.invalid = false →
      (s.bent die bent).vecBusy ≤ l.fabSlot slot → s.vecCome die bent l slot r = true →
      ∃ t, exec (c die bent slot sram) s = .next t ∧
        t.rd (ledgPage die bent) Reg.LEDG_REDUCE_COUNT = satAdd (s.rd (ledgPage die bent) Reg.LEDG_REDUCE_COUNT) 1) ∧
  vecDoes Instr.vecAdamw 0x18 (fun _ b r => if r.count = 0 then ([], [])
    else if natsLE (b.bytes (r.aux + 0x60) 4) ≠ 0 then ([], [(r.a + 12 * r.count, List.replicate (4 * r.count) 0)])
    else ([], (vecAdamwOut b r).wr)) ∧
  vecDoes Instr.vecRepackCol 0x19 (fun x b r => if r.count = 0 then ([], []) else ((vecRepackOut x b r).dst, (vecRepackOut x b r).wr)) ∧
  vecDoes Instr.vecPack 0x1A (fun x b r => if r.count = 0 then ([], []) else
    (pairUp ((if r.aFab then flitBytes x.1 r.count else (upFrom 0 r.count).map (fun i => b.byte (r.a + i * r.im 0))).map
      (fun y => if r.im 1 = 0 then y % 16 else y / 16 % 16)), [])) ∧
  vecDoes Instr.vecMxReblock 0x1B (fun x b r => if r.count = 0 then ([], []) else ((vecMxOut x b r).dst, (vecMxOut x b r).wr))

/-- O52. SEGMENT_QUANTISE, once the flits of its segment have come, adds the quantised pass of its word. FORWARD_PASS and
TRANSPOSED_PASS, once the ledger words up to its slot have acted, drive it with the row's epoch: codes lie between -511 and
511, beats are counted, and a zero segment is skipped. A reserve beat drives the pass that claimed it. Each later stage acts
when the plan has come past its slot, and not while it waits at a gate before it. CHECK_VERDICT records the groups that
miss. PASS_EVENT_SETTLE lets a zero or clean pass write, accepts a missed repeat with a mark, and claims a repeat for a
missed pass. A window of the escalation count closes at its multiple. PARTIAL_WRITE, in the order of Table 06-3, drops the
pass and adds its partial to an open row of its epoch, or counts it as late. -/
def Obligations.PassesRunFromQuantiseToWrite : Prop :=
  ∀ (s : State) (die bent a slot : Nat), s.isUp → bent < 128 → a < 4 →
    let A := s.arr die bent a
    (∀ (l : Live) (w take : Nat) (ns : List Nat) (half : Bool), s.segWord die bent a slot = some (l, w, ns) → bits w 63 62 < 2 →
      A.passes.any (fun p => p.stage == .quantised && p.slot == (slot : Int)) = false →
      let mine := (ns.zipIdx.filter (fun n => bitAt take n.2)).map (fun n => n.1)
      (mine.all (fun n => s.routerPast die bent (n + 1)) = false → exec (.segmentQuantise die bent a slot take half none) s = .next s) ∧
      (mine.all (fun n => s.routerPast die bent (n + 1)) = true →
      let fs := s.takeFlits die bent 4 mine
      let raw := segVals half fs
      let clean := raw.map (fun v => if isFin32 v then v else 0)
      let g := quantSeg (wordFmt w) (bits w 57 56) (bits w 15 0)
        (if bits w 63 62 = 1 then preScale A.livePlane (bitAt w 59 && !bitAt w 61) clean else clean)
      ∃ t p, exec (.segmentQuantise die bent a slot take half none) s = .next t ∧
        t.arr die bent a = { A with passes := A.passes ++ [p], nextPass := A.nextPass + 1 } ∧ p.id = A.nextPass ∧ p.word = w ∧
        p.stage = .quantised ∧ p.ctx = l.c ∧ p.slot = slot ∧ p.q = g.q ∧ p.sm = g.sm ∧ p.se = g.se ∧ p.outl = g.outl ∧
        p.second = g.second ∧ arrsKept s t [arrKey die bent a] ∧ (Flag.isPoison (fabIn fs []).marks = false → t.ctxs = s.ctxs) ∧
        t = { s with regs := t.regs, out := t.out, log := t.log, free := t.free, arrs := t.arrs, ctxs := t.ctxs })) ∧
    (∀ (l : Live) (w : Nat) (p : Pass) (score : Option Nat), s.bentWord 1 die bent a slot = some (l, w) → bits w 63 62 < 2 →
      A.passes.find? (fun p => p.stage == .quantised && p.slot == (slot : Int) && p.ctx == l.c) = some p →
      (bits w 63 62 = 1 → score = none) →
      let c := if bits w 63 62 = 0 then Instr.forwardPass die bent a slot score else Instr.transposedPass die bent a slot
      (s.ledgPast l die bent (slot + 1) = false → exec c s = .next s) ∧
      (s.ledgPast l die bent (slot + 1) = true → ∃ t p', exec c s = .next t ∧
        (∀ q, score = some q → look ⟨[], 0⟩ (t.arr die bent a).scores q = ⟨List.replicate 512 0, 0⟩) ∧ p'.score = score ∧
        p'.slot = (slot : Int) + 16 * (if p.wide then 1 else 0) ∧
        p'.epoch = (if p.entry.isNone then ((s.bent die bent).row p.rowK).epoch else p.epoch) ∧
        (t.arr die bent a).passes = A.passes.map (fun r => if r.id = p.id then p' else r) ∧ p'.id = p.id ∧ p'.stage = .driven ∧
        p'.plane = A.live ∧ p'.bank = A.activeCoef ∧ (∀ c, c ∈ p'.codes → ∀ v, v ∈ c → p.zero = false → -511 ≤ v ∧ v ≤ 511) ∧
        (p.zero = true → t.rd (aPage die bent a) Reg.ARR_ZERO_SKIP_COUNT = satAdd (s.rd (aPage die bent a) Reg.ARR_ZERO_SKIP_COUNT) 1) ∧
        (p.zero = false → t.rd64 (aPage die bent a) Reg.ARR_PASS_COUNT =
          (s.rd64 (aPage die bent a) Reg.ARR_PASS_COUNT + p.beats) % 2 ^ 64) ∧
        (t.arr die bent a).plane0 = A.plane0 ∧ (t.arr die bent a).plane1 = A.plane1 ∧
        arrsKept s t [arrKey die bent a, arrKey die bent (a ^^^ 1)] ∧
        t = { s with regs := t.regs, free := t.free, arrs := t.arrs, ctxs := t.ctxs })) ∧
    (∀ (l : Live) (w : Nat), s.bentWord 1 die bent a slot = some (l, w) → bits w 63 62 = 2 →
      ∃ t, exec (.reserveBeat die bent a slot) s = .next t ∧
        (A.claims.find? (fun c => c.slot == slot) = none → t = s) ∧
        (∀ c, A.claims.find? (fun c => c.slot == slot) = some c →
          (t.arr die bent a).claims = A.claims.filter (fun d => d.slot != slot) ∧
          (t.arr die bent a).passes.length = A.passes.length + (if c.pass = none then 0 else 1)) ∧
        arrsKept s t [arrKey die bent a, arrKey die bent (a ^^^ 1)] ∧
        t = { s with regs := t.regs, free := t.free, arrs := t.arrs, ctxs := t.ctxs }) ∧
    (s.dueIn die bent a .driven 24 = none → exec (.checkVerdict die bent a) s = .next s) ∧
    (∀ p, s.dueIn die bent a .driven 24 = some p →
      ∃ t m, exec (.checkVerdict die bent a) s = .next t ∧
        (t.arr die bent a).passes = A.passes.map (fun r => if r.id = p.id then { p with stage := .checked, missed := m } else r) ∧
        (p.zero = true → m = p.missed ∧ t = { s with arrs := t.arrs }) ∧
        (p.zero = false → (∀ g, g ∈ m ↔ ∃ i, i ∈ p.nibbles ∧ g ∈ s.missedOf die bent a p i) ∧
          (p.wide = false → m ≠ [] → t.rd (aPage die bent a) Reg.ARR_MISS_COUNT =
            satAdd (s.rd (aPage die bent a) Reg.ARR_MISS_COUNT) 1)) ∧ t.bents = s.bents ∧ t.mem = s.mem) ∧
    (∀ n : Nat, s.dueIn die bent a .checked 31 = none →
      exec (.passEventSettle die bent a n) s = .next { s with time := max s.time n }) ∧
    (∀ p (n : Nat), s.dueIn die bent a .checked 31 = some p →
      let held := fun (t : State) (wr : Wr) (m : Nat) => ∃ e, (t.arr die bent a).passes =
        A.passes.map (fun r => if r.id = p.id then { p with stage := .settled, wr := wr, flags := p.flags ||| m, entry := e } else r)
      ∃ t, exec (.passEventSettle die bent a n) s = .next t ∧
        (p.zero = true → held t .full 0 ∧ t = { s with time := t.time, arrs := t.arrs }) ∧
        (p.zero = false → p.missed ≠ [] → p.isRepeat = true → held t .full Flag.bound ∧ t.bents = s.bents) ∧
        (p.zero = false → p.missed ≠ [] → p.isRepeat = false →
          (s.canClaim die bent a p 1 = true → held t .nothing 0 ∧ ∃ c cs, (t.arr die bent a).claims = A.claims ++ c :: cs) ∧
          (s.canClaim die bent a p 1 = false → held t .full Flag.bound ∧ t.bents = s.bents)) ∧
        (p.zero = false → p.missed = [] → p.isSub = false → p.clipMask.contains true = false → p.second = [] →
          held t .full 0 ∧ t = { s with time := t.time, regs := t.regs, arrs := t.arrs }) ∧
        (p.zero = false → p.missed = [] → p.isSub = true → held t .full 0 ∨ held t .full Flag.bound) ∧
        t.time = max s.time n ∧ t.mem = s.mem) ∧
    (let n := s.rd64 (aPage die bent a) Reg.ARR_PASS_COUNT
     ∃ t, exec (.escalationWindowEnd die bent a) s = .next t ∧
      (n / 2 ^ A.escCur.w ≤ A.escCur.start / 2 ^ A.escCur.w → t = s) ∧
      (A.escCur.start / 2 ^ A.escCur.w < n / 2 ^ A.escCur.w → t.arr die bent a =
        { A with escPrev := A.escCur, escCur := ⟨n / 2 ^ A.escCur.w * 2 ^ A.escCur.w, s.escLog die bent a, 0, false⟩ } ∧
        arrsKept s t [arrKey die bent a] ∧ t = { s with arrs := t.arrs })) ∧
    (s.dueIn die bent a .settled 47 = none → exec (.partialWrite die bent a) s = .next s) ∧
    (∀ p, s.dueIn die bent a .settled 47 = some p →
      let b := s.bent die bent
      let k := p.rowK
      (s.writeTurn die bent a p = false → exec (.partialWrite die bent a) s = .next s) ∧
      (s.writeTurn die bent a p = true → ∃ t, exec (.partialWrite die bent a) s = .next t ∧
        (t.arr die bent a).passes = A.passes.filter (fun r => r.id != p.id) ∧
        (p.wr = .nothing → t.bents = s.bents) ∧
        (p.wr = .full → p.role = .normal → p.score = none → p.zero = false → (b.row k).isOpen = true → (b.row k).epoch = p.epoch →
          (∀ i v, i < 512 → nth none (s.partialVals die bent a p) i = some v →
            (t.bent die bent).word (rowAddr k / 4 + i) = BitVec.ofNat 32 (fAdd (b.word (rowAddr k / 4 + i)).toNat v).bits) ∧
          t.rd (ledgPage die bent) Reg.LEDG_PARTIAL_COUNT = satAdd (s.rd (ledgPage die bent) Reg.LEDG_PARTIAL_COUNT) 1) ∧
        (p.wr = .full → p.role = .normal → p.score = none → ((b.row k).isOpen = false ∨ (b.row k).epoch ≠ p.epoch) →
          (t.bent die bent).bench = b.bench ∧
          t.rd (ledgPage die bent) Reg.LEDG_LATE_COUNT = satAdd (s.rd (ledgPage die bent) Reg.LEDG_LATE_COUNT) 1) ∧
        bentsKept s t die bent ∧ t = { s with regs := t.regs, out := t.out, free := t.free, arrs := t.arrs, bents := t.bents }))

/-- O53. Where an engine meets its word in a step slot, the package being up: WINDOW_OPEN gives it the layer, mode, share and
task list; TAKE_QUERY and TAKE_FRESH, once their flits have come (before, nothing changes), add them to the window's and
fill the rows and the fresh entries of the tasks in list order; WINDOW_CLOSE computes every task, counts the ones that read
all their blocks, and in a forward mode leaves one output row for each query row; SEND puts the data of the tasks on the X
port from where the last SEND stopped and, as the last of its window, leaves the engine idle. Every other engine is as
before. -/
def Obligations.AttentionWindowsRun : Prop :=
  ∀ (s : State) (die e slot w : Nat) (sram : SramRead) (l : Live), s.isUp → e < 16 → s.unitWord 4 die e slot = some (l, w) →
    let a := s.att die e
    let d := (l.attGroup a.layer).dim
    let others := fun (t : State) => ∀ n c, unitKey n c ≠ unitKey die e → t.att n c = s.att n c
    let n := bits w 31 0
    let new := sramFlits sram (s.takeFlits die (attBent e) 5 (upFrom (l.fabSlot slot) n))
    let come := s.routerPast die (attBent e) (l.fabSlot slot + n)
    (come = false → (bits w 63 60 = 3 → exec (.takeQuery die e slot sram) s = .next s) ∧
      (bits w 63 60 = 4 → exec (.takeFresh die e slot sram) s = .next s)) ∧
    (bits w 63 60 = 1 → ∃ t, exec (.windowOpen die e slot) s = .next t ∧
      t.att die e = { a with state := 1, ctx := l.c, layer := bits w 59 50, mode := bits w 49 48, share := bits w 47 32, openSlot := slot, length := l.closeAfter die e slot - slot, tasks := a.listOf (bits w 59 50), qFlits := [], fFlits := [], sent := 0 } ∧
      others t ∧ t = { s with atts := t.atts }) ∧
    (bits w 63 60 = 3 → come = true → ∃ t, exec (.takeQuery die e slot sram) s = .next t ∧
      (let take := fun (fs : List Flit) => takeTasks d (l.attLayer a.layer).qPerKv (a.mode == 2) fs 0 a.tasks
       let r := take (a.qFlits ++ new)
       t.att die e = { a with tasks := r.1, qFlits := a.qFlits ++ new } ∧
       t.rd (attPage die e) Reg.ATT_FP8_SAT_COUNT = satAdd (s.rd (attPage die e) Reg.ATT_FP8_SAT_COUNT) (r.2.1 - (take a.qFlits).2.1) ∧
       t.rd (attPage die e) Reg.ATT_NONFINITE_COUNT =
         satAdd (s.rd (attPage die e) Reg.ATT_NONFINITE_COUNT) (r.2.2 - (take a.qFlits).2.2)) ∧
      (∀ i, i < a.tasks.length → ∀ q y : AttTask, (t.att die e).tasks[i]? = some q → a.tasks[i]? = some y →
        q.q.length = y.n * (l.attLayer a.layer).qPerKv) ∧ others t ∧ (Flag.isPoison (fabIn new []).marks = false → t.ctxs = s.ctxs) ∧
      sramNoted s t (attPage die e) [sram] ∧
      t = { s with regs := t.regs, out := t.out, log := t.log, free := t.free, atts := t.atts, ctxs := t.ctxs, sramFixed := t.sramFixed, sramWorn := t.sramWorn }) ∧
    (bits w 63 60 = 4 → come = true → ∃ t, exec (.takeFresh die e slot sram) s = .next t ∧
      t.att die e = { a with tasks := takeFreshTasks d (a.fFlits ++ new) 0 a.tasks, fFlits := a.fFlits ++ new } ∧
      (∀ i, i < a.tasks.length → ∀ q y : AttTask, (t.att die e).tasks[i]? = some q → a.tasks[i]? = some y →
        q.fresh.length = y.n ∧ q.q = y.q) ∧ others t ∧ (Flag.isPoison (fabIn new []).marks = false → t.ctxs = s.ctxs) ∧
      sramNoted s t (attPage die e) [sram] ∧
      t = { s with regs := t.regs, out := t.out, log := t.log, free := t.free, atts := t.atts, ctxs := t.ctxs, sramFixed := t.sramFixed, sramWorn := t.sramWorn }) ∧
    (bits w 63 60 = 2 → ∀ (done : List Nat) (n : Nat), ∃ t, exec (.windowClose die e slot done n) s = .next t ∧
      (t.att die e).state = 2 ∧ (t.att die e).tasks.length = a.tasks.length ∧ (t.att die e).layer = a.layer ∧
      (a.mode ≠ 2 → ∀ (i : Nat) (q y : AttTask), (t.att die e).tasks[i]? = some q → a.tasks[i]? = some y → q.out.length = y.q.length) ∧
      (done = [] → t.rd (attPage die e) Reg.ATT_TASK_COUNT =
        satAdd (s.rd (attPage die e) Reg.ATT_TASK_COUNT) a.tasks.length) ∧ others t ∧
      t = { s with regs := t.regs, out := t.out, log := t.log, free := t.free, mem := t.mem, atts := t.atts, ctxs := t.ctxs, req := t.req }) ∧
    (bits w 63 60 = 5 → s.isGiven die (attBent e) 5 (l.fabSlot slot) = true → exec (.attSend die e slot) s = .next s) ∧
    (bits w 63 60 = 5 → s.isGiven die (attBent e) 5 (l.fabSlot slot) = false → ∃ t, exec (.attSend die e slot) s = .next t ∧
      (∀ i f, ((a.flits.drop a.sent).take n)[i]? = some f →
        (bentKey die (attBent e), 5, l.fabSlot slot + i, f) ∈ t.fab.staged) ∧
      t.att die e = (if l.sendsAfter die e slot then { a with sent := a.sent + n }
        else { a with state := 0, tasks := [], qFlits := [], fFlits := [], sent := 0 }) ∧ others t ∧
      t.fab = { s.fab with staged := t.fab.staged, given := (bentKey die (attBent e), 5, l.fabSlot slot) :: s.fab.given } ∧
      t = { s with atts := t.atts, fab := t.fab })

/-- O54. ACCUMULATE, once its flits have come, of one vector makes every cell of the active bank the rounded sum of itself and
the product of its operands, fixes the bank's tile with its first vector, and counts the vector. A flush frees the other
bank and, for a tile that holds nothing yet, leaves the cells in the S tile; a fold takes its tile off the list. Outside the
tiles and the record every byte reads as before. KV_ENTRY_WRITE of a position of the step that is not written yet, once its
flits have come on a ring port, writes the entries of all heads with the padding behind them, and marks it written. -/
def Obligations.GradientsAndKvEntriesAreWritten : Prop :=
  (∀ (s : State) (die g slot w : Nat) (sram : SramRead) (l : Live), s.isUp → g < 16 → s.unitWord 5 die g slot = some (l, w) → bits w 63 60 = 1 →
    s.routerPast die (gradBent g) (l.fabSlot slot + 16 * bits w 31 16) = true →
    let u := s.grad die g
    let fs := sramFlits sram (s.takeFlits die (gradBent g) 5 (upFrom (l.fabSlot slot) (16 * bits w 31 16)))
    let marks := (fabIn fs []).marks
    let b := { u.activeBank.aim l (bits w 55 32) with flags := (u.activeBank.aim l (bits w 55 32)).flags ||| marks }
    ∃ t, exec (.gradAccumulate die g slot sram) s = .next t ∧
      (t.grad die g).active = u.active ∧ (t.grad die g).otherBank = u.otherBank ∧
      (t.grad die g).activeBank.tile = b.tile ∧ (u.activeBank.tile = none → l.tileIn (bits w 55 32) = true → b.tile = some (bits w 55 32)) ∧
      (bits w 31 16 = 1 → (∀ k, k < 262144 → look 0 (t.grad die g).activeBank.cells k =
        BitVec.ofNat 32 (nth ⟨0, false, false⟩ (accVec b.cells (gvec fs)) k).bits)) ∧
      (bits w 31 16 = 0 → (t.grad die g).activeBank = b) ∧
      t.rd (gradPage die g) Reg.GRAD_VECTOR_COUNT = satAdd (s.rd (gradPage die g) Reg.GRAD_VECTOR_COUNT) (bits w 31 16) ∧
      (∀ d c, unitKey d c ≠ unitKey die g → t.grad d c = s.grad d c) ∧ (Flag.isPoison marks = false → t.ctxs = s.ctxs) ∧
      sramNoted s t (gradPage die g) [sram] ∧
      t = { s with regs := t.regs, out := t.out, log := t.log, free := t.free, grads := t.grads, ctxs := t.ctxs, sramFixed := t.sramFixed, sramWorn := t.sramWorn }) ∧
  (∀ (s : State) (die g tile : Nat), s.isUp → g < 16 → (s.grad die g).otherBank.tile = some tile → (s.grad die g).otherBank.state = 2 →
    let u := s.grad die g
    let b := u.otherBank
    ∃ t, exec (.gradFlushComplete die g) s = .next t ∧ t.grad die g = u.setBank (1 - u.active) GBank.reset ∧
      t.rd (gradPage die g) Reg.GRAD_FLUSH_SEQ = BitVec.ofNat 32 b.seq ∧
      t.rd (gradPage die g) Reg.GRAD_FLUSH_COUNT = satAdd (s.rd (gradPage die g) Reg.GRAD_FLUSH_COUNT) 1 ∧
      (b.sAddr % 4096 = 0 → Flag.isPoison b.flags = false → Flag.isPoison (s.unitRead b.recAddr 8).1.flags = false → leNat (s.unitRead b.recAddr 8).1.data % 4 = 0 →
        (∀ k, k ∈ blksOf b.recAddr 8 → k ∉ blksOf b.sAddr tileBytes) →
        ∀ k i, k < 262144 → i < 4 → (t.mem.fixed (b.sAddr + 4 * k + i)).toNat = (look 0 b.cells k).toNat / 256 ^ i % 256) ∧
      (∀ a, a / 4096 ∉ blksOf b.sAddr tileBytes → a / 4096 ∉ blksOf b.recAddr 8 → s.mem.cwBad (a / 64) = false →
        t.mem.fixed a = s.mem.fixed a) ∧
      t = { s with regs := t.regs, out := t.out, log := t.log, free := t.free, mem := t.mem, grads := t.grads, folds := t.folds, ctxs := t.ctxs }) ∧
  (∀ (s : State) (die g tile : Nat) (f : Fold), s.isUp →
    s.folds.find? (fun f => f.queued && f.unit == unitKey die g && f.tile == tile) = some f →
    s.folds.any (fun h => h.queued && h.ctx == f.ctx && h.step < f.step) = false →
    ∃ t, exec (.gradFoldComplete die g tile) s = .next t ∧
      t.folds = s.folds.filter (fun h => !(h.ctx == f.ctx && h.tile == f.tile)) ∧
      (∀ a, a / 4096 ∉ blksOf f.gAddr tileBytes → a / 4096 ∉ blksOf f.sAddr tileBytes → a / 4096 ∉ blksOf f.recAddr 8 →
        s.mem.cwBad (a / 64) = false → t.mem.fixed a = s.mem.fixed a) ∧
      t = { s with regs := t.regs, out := t.out, log := t.log, free := t.free, mem := t.mem, folds := t.folds, ctxs := t.ctxs }) ∧
  (∀ (s : State) (die req layer pos port fslot : Nat) (y : ReqEnt) (l : Live) (r : Rostered) (a : AttEnt), s.isUp →
    s.reqEnt req = some y → s.live y.ctx = some l → l.r.roster.find? (fun r => r.idx == req) = some r →
    l.p.img.attOf layer = some a → l.r.inStep = true → y.length ≤ pos → pos < y.length + r.n →
    (l.x.kv.group a.group).home = die → r.written.contains (layer, pos) = false →
    let g := l.x.kv.group a.group
    port < 32 → 1 ≤ fslot → s.ringPast die port (fslot + g.rowFlits) = true →
    let x := fabIn (s.ringFlits die port (upFrom fslot g.rowFlits)) []
    let d := s.dirEnt y (g.entryOf l.x.kv.window (pos / g.tokens))
    let addr := s.frameAddr d.die d.frame + g.entryOff pos (l.p.img.rankOf a) 0
    let bytes := (kvEntry g.dim g.heads (x.valsA (2 * g.dim * g.heads))).1.map (fun b => BitVec.ofNat 8 b) ++
      List.replicate (g.padding pos (l.p.img.rankOf a)) (0 : Byte)
    ∃ t z n, exec (.kvEntryWrite die req layer pos ⟨port, fslot⟩) s = .next t ∧ (Flag.isPoison x.marks = false → written s t addr bytes) ∧
      blocksKept s t addr bytes.length ∧ t.ctx l.c = some z ∧ z.run = some n ∧
      (∀ q, q ∈ n.roster → q.idx = req → (a.layer, pos) ∈ q.written) ∧ (∀ c, c ≠ l.c → t.ctx c = s.ctx c) ∧
      t = { s with regs := t.regs, out := t.out, log := t.log, free := t.free, mem := t.mem, ctxs := t.ctxs })

/-- O55. WEIGHT_FEED_LOAD of a plane of the generation in force begins its load, or refuses it with the code of Table 13-7 and
counts it. PLANE_LOAD_COMPLETE makes the staged plane accepted with the load's tag, or refuses an MX tensor that does not
lie in T1 (the model's choice, log entry 24), the live plane unchanged. PLANE_DRAIN_END copies the active coefficients to
the staged bank. A full live window adds its entry to the update set of its beat and its figures; UPDATE_SET_WRITE moves up
to 34 entries of the oldest set to the staged bank; a rate window publishes its counts. RECALIBRATION_START clears the
triggers and marks the figures stale; RECALIBRATION_COMPLETE ends it, counts it and closes live windows until the swap. No
other array changes at a load. -/
def Obligations.PlanesLoadAndCalibrationRuns : Prop :=
  (∀ (s : State) (c die slot w : Nat) (l : Live) (kv : Option KvTile), s.isUp → s.live c = some l → l.wordNow 6 die 0 0 slot = some w →
    (kv = none ∨ ∃ t, kv = some t ∧ s.preJob l t.layer = none) →
    let a := bits w 47 46
    let bent := bits w 45 39
    let A := s.arr die bent a
    A.loading = none → A.draining = false → A.waiting = [] →
    let p := bits w 23 0
    let gen := s.gen (if bitAt w 38 then l.r.nextGen else l.r.stepGen)
    ∃ t, exec (.weightFeedLoad c die slot kv) s = .next t ∧ (t.arr die bent a).live = A.live ∧
      (t.arr die bent a).plane A.live = A.plane A.live ∧ ((t.arr die bent a).plane (1 - A.live)).tag = bits w 63 48 ∧
      ((t.arr die bent a).plane (1 - A.live)).cells = (A.plane (1 - A.live)).cells ∧
      (gen = none → (t.arr die bent a).staged = 3 ∧ (t.arr die bent a).loadError = Err.genRetired ∧ (t.arr die bent a).loading = none) ∧
      (∀ g, gen = some g →
        let r := feedReq g l.c (bits w 63 48) p (if p < g.planeCount then (s.unitRead (g.table + 16 * p) 16).1 else ⟨[], 0⟩)
        (r.code = 0 → (t.arr die bent a).staged = 1 ∧ (t.arr die bent a).rows = 0 ∧ (t.arr die bent a).loading = some r) ∧
        (r.code ≠ 0 → (t.arr die bent a).staged = 3 ∧ (t.arr die bent a).loadError = r.code ∧ (t.arr die bent a).loading = none ∧
          t.rd (diePage .wgt die) Reg.WGT_LOAD_REFUSED_COUNT = satAdd (s.rd (diePage .wgt die) Reg.WGT_LOAD_REFUSED_COUNT) 1)) ∧
      arrsKept s t [arrKey die bent a] ∧
      t = { s with regs := t.regs, out := t.out, log := t.log, free := t.free, mem := t.mem, arrs := t.arrs }) ∧
  (∀ (s : State) (die bent a : Nat) (fmt : PlaneFmt) (r : LoadReq), s.isUp → (s.arr die bent a).loading = some r → r.kv = none →
    r.crypt = none → (s.arr die bent a).waiting = [] →
    let A := s.arr die bent a
    let n := imageSize fmt + 4 * r.resid
    let fits := !fmtMx fmt || s.devRange r.addr n
    let data := (s.unitRead r.addr n).1
    ∃ t, exec (.planeLoadComplete die bent ⟨a, fmt⟩) s = .next t ∧
      (t.arr die bent a).loading = none ∧ (t.arr die bent a).plane A.live = A.plane A.live ∧
      (fits = true → (t.arr die bent a).staged = 2 ∧ (t.arr die bent a).rows = 576 ∧
        (t.arr die bent a).poisoned = (r.poison || Flag.isPoison data.flags) ∧
        (t.arr die bent a).plane (1 - A.live) = loadedPlane fmt r data.data data.flags ∧
        (∀ q ix, r.flight = some (q, ix) → ∀ f, s.flight q ix = some f → t.ended q ix 0 0 0)) ∧
      (fits = false → (t.arr die bent a).staged = 3 ∧ (t.arr die bent a).loadError = Err.length ∧
        ((t.arr die bent a).plane (1 - A.live)).cells = (A.plane (1 - A.live)).cells) ∧
      arrsKept s t [arrKey die bent a] ∧
      t = { s with regs := t.regs, out := t.out, log := t.log, free := t.free, mem := t.mem, arrs := t.arrs, que := t.que }) ∧
  (∀ (s : State) (die bent a : Nat), s.isUp → (s.arr die bent a).waiting = [] →
    let A := s.arr die bent a
    ∃ t, exec (.planeDrainEnd die bent a) s = .next t ∧ (A.draining = false → t = s) ∧
      (A.draining = true → (t.arr die bent a).draining = false ∧ (t.arr die bent a).live = A.live ∧
        (t.arr die bent a).coefs (1 - A.activeCoef) = A.coefs A.activeCoef ∧
        arrsKept s t [arrKey die bent a] ∧ t = { s with arrs := t.arrs })) ∧
  (∀ (s : State) (die bent a line : Nat) (c : CalWin), s.isUp → look none (s.arr die bent a).cal.wins line = some c → 2 ^ c.w ≤ c.n →
    (s.arr die bent a).cal.closed = false →
    let e := estimate c
    ∃ t, exec (.liveWindowClose die bent a line) s = .next t ∧ look none (t.arr die bent a).cal.wins line = none ∧
      (t.arr die bent a).cal.update = joinSet c.beat (line, e.coef) (s.arr die bent a).cal.update ∧
      look 0 (t.arr die bent a).cal.resid line = e.resid ∧ look 0 (t.arr die bent a).cal.noise line = e.noise ∧
      (isData line = true → 350 < e.resid ∨ 25 < e.noise → (t.arr die bent a).cal.isOver = true) ∧
      t = { s with regs := t.regs, out := t.out, arrs := t.arrs, cals := t.cals }) ∧
  (∀ (s : State) (die bent a : Nat), s.isUp →
    let A := s.arr die bent a
    ∃ t, exec (.updateSetWrite die bent a) s = .next t ∧ (A.draining = true ∨ A.cal.update = [] → t = s) ∧
      (∀ u us, A.cal.update = u :: us → A.draining = false →
        let now := u.todo.take 34
        (t.arr die bent a).cal.update = (if (u.todo.drop 34).isEmpty then us else
          { u with todo := u.todo.drop 34, old := u.old ++ now.map (fun e => (e.1, coefOf (A.coefs (1 - A.activeCoef)) e.1)) } :: us) ∧
        (now.Pairwise (fun u v => u.1 ≠ v.1) → ∀ e, e ∈ now → coefOf ((t.arr die bent a).coefs (1 - A.activeCoef)) e.1 = e.2) ∧
        (∀ k, (∀ e, e ∈ now → e.1 ≠ k) →
          coefOf ((t.arr die bent a).coefs (1 - A.activeCoef)) k = coefOf (A.coefs (1 - A.activeCoef)) k) ∧
        t.rd (calPage die bent) Reg.CAL_UPDATE_COUNT = satAdd (s.rd (calPage die bent) Reg.CAL_UPDATE_COUNT) now.length ∧
        arrsKept s t [arrKey die bent a] ∧ t = { s with regs := t.regs, arrs := t.arrs })) ∧
  (∀ (s : State) (die bent a : Nat), s.isUp → a < 4 →
    let c := (s.arr die bent a).cal
    ∃ t, exec (.rateWindowEnd die bent a) s = .next t ∧ (c.rateN < 2 ^ c.rateLog → t = s) ∧
      (2 ^ c.rateLog ≤ c.rateN → (t.arr die bent a).cal.rateN = c.rateN - 2 ^ c.rateLog ∧ (t.arr die bent a).cal.rateMiss = 0 ∧
        (t.rd (calPage die bent) (0x68 + 16 * a)).toNat = min c.rateMiss 0x7FFFFFFF ∧
        (t.rd (calPage die bent) (0x6C + 16 * a)).toNat = min c.rateSecond 0x7FFFFFFF ∧
        arrsKept s t [arrKey die bent a] ∧ t = { s with regs := t.regs, arrs := t.arrs })) ∧
  (∀ (s : State) (die bent n : Nat), s.isUp → s.awake die = true → bent < 128 →
    ∃ t, exec (.recalibrationStart die bent n) s = .next t ∧ (s.recalMayStart die bent n = false → t = { s with time := max s.time n }) ∧
      (s.recalMayStart die bent n = true →
        t.calBent die bent = { s.calBent die bent with trigger := 0, running := some (s.calBent die bent).tNow, moved := false } ∧
        (∀ a, a < 4 → (t.arr die bent a).cal.stale = true) ∧
        (∀ d b, bentKey d b ≠ bentKey die bent → t.calBent d b = s.calBent d b) ∧
        t = { s with time := max s.time n, regs := t.regs, out := t.out, arrs := t.arrs, cals := t.cals, ctxs := t.ctxs })) ∧
  (∀ (s : State) (die bent n : Nat) (x : SramRead) (t0 : Int), s.isUp → bent < 128 → (s.calBent die bent).running = some t0 →
    ∃ t, exec (.recalibrationComplete die bent n x) s = .next t ∧ (t.calBent die bent).running = none ∧
      (t.calBent die bent).tCal = (s.calBent die bent).tNow ∧
      (∀ a, a < 4 → (s.arr die bent a).retired = 0 → (t.arr die bent a).cal.closed = true ∧ (t.arr die bent a).cal.update = []) ∧
      t.rd (calPage die bent) Reg.CAL_RECAL_COUNT = satAdd (s.rd (calPage die bent) Reg.CAL_RECAL_COUNT) 1 ∧
      (∀ d b, bentKey d b ≠ bentKey die bent → t.calBent d b = s.calBent d b) ∧ t.mem = s.mem ∧ t.time = max s.time n)

/-- O56. GATE_ARRIVAL of a running plan whose dies are awake, with nothing that stops it, puts it at the gate at its arrival
time. GATE_RELEASE of a waiting plan that nothing breaks while a condition fails only notes the terms that hold; when all
hold in time, an inner gate is left, at once or aligned, and a step-boundary gate closes its step: the context's and the
plan page's step counts gain 1. A term's object that cannot be read faults the context. GATE_DEADLINE with an overdue record
counts a timeout and ends the step with TIMEOUT; before that it does nothing. PLAN_RESUME goes on at the next fabric slot of
residue 0. -/
def Obligations.PlansPassGates : Prop :=
  (∀ (s : State) (c slot n : Nat) (l : Live), s.isUp → s.live c = some l → s.arrives l slot = true → s.diesAwake l.p.img = true →
    s.fab.stalled = false → l.r.inStep = true → l.r.destroy = none → l.x.faulted = none → l.r.strict = false →
    l.r.knotSeen = s.fab.knots.version → (∀ k, k ∈ s.unmapped → s.owner (k / 512) (k / 4 % 128) ≠ some c) → s.wornFor c = [] →
    s.badSwap { l with r := { l.r with gate := some slot, boundary := slot == l.stepSlots, swapped := [] } } = none →
    ∃ t x r, exec (.gateArrival c slot n) s = .next t ∧ t.ctx c = some x ∧ x.run = some r ∧ r.gate = some slot ∧
      r.boundary = (slot == l.stepSlots) ∧ r.arrival = max s.time n ∧ r.released = false ∧ r.inStep = true ∧
      r.roster = l.r.roster ∧ x.steps = l.x.steps ∧ (∀ j, j ≠ c → t.ctx j = s.ctx j) ∧ (∀ j, j ≠ l.r.plan → t.plan j = s.plan j) ∧
      t = { s with time := max s.time n, ctxs := t.ctxs, plans := t.plans, arrs := t.arrs }) ∧
  (∀ (s : State) (c n : Nat) (outs : List ReqOut) (l : Live), s.isUp → s.live c = some l → l.waits (max s.time n) = true →
    s.gateBreak l (max s.time n) = none →
    let goes := s.gateHolds l (max s.time n) && l.inTime (max s.time n)
    ∃ t, exec (.gateRelease c outs ⟨n, .clean⟩) s = .next t ∧ (goes = false → t = { s with time := max s.time n, ctxs := t.ctxs } ∧
        t.ctx c = some { l.x with run := some { l.r with met := l.r.met ++ s.newlyMet l } } ∧ (∀ j, j ≠ c → t.ctx j = s.ctx j)) ∧
      (goes = true → l.r.boundary = false → ∃ x r, t.ctx c = some x ∧ x.run = some r ∧ r.lastGate = l.slot ∧
        (if l.r.align || decide (l.r.arrival < max s.time n) || !s.routersBefore l (l.fabSlot l.slot) then r.gate = l.r.gate ∧ r.released = true else r.gate = none) ∧
        x.steps = l.x.steps ∧ (l.atUpdate = false → t.mem = s.mem ∧ t.req = s.req) ∧ (∀ j, j ≠ c → t.ctx j = s.ctx j) ∧
        t.rd (diePage .plan l.r.lead) Reg.PLAN_GATE_WAIT =
          satAdd (s.rd (diePage .plan l.r.lead) Reg.PLAN_GATE_WAIT) (max s.time n - l.r.arrival)) ∧
      (goes = true → l.r.boundary = true → l.r.inStep = true → ∃ x, t.ctx c = some x ∧ x.steps = (l.x.steps + 1) % 2 ^ 64 ∧
        t.rd (diePage .plan l.r.lead) Reg.PLAN_STEP_COUNT = satAdd (s.rd (diePage .plan l.r.lead) Reg.PLAN_STEP_COUNT) 1) ∧
      t.time = max s.time n) ∧
  (∀ (s : State) (c n : Nat) (outs : List ReqOut) (x : SramRead) (l : Live), s.isUp → s.live c = some l → l.waits (max s.time n) = true →
    (l.hasTerms = false → exec (.gateRelease c outs ⟨n, x⟩) s = exec (.gateRelease c outs ⟨n, .clean⟩) s) ∧
    (l.hasTerms = true → sramLost x = false →
      exec (.gateRelease c outs ⟨n, x⟩) s = exec (.gateRelease c outs ⟨n, .clean⟩) (s.sramSeen syncPage x none)) ∧
    (l.hasTerms = true → sramLost x = true → l.r.destroy = none → ∃ t y, exec (.gateRelease c outs ⟨n, x⟩) s = .next t ∧
      t.ctx c = some y ∧ y.lastError = Err.poison ∧ y.steps = l.x.steps)) ∧
  (∀ (s : State) (c n : Nat) (l : Live), s.isUp → s.live c = some l → l.waits (max s.time n) = true →
    s.gateBreak l (max s.time n) = none →
    let isOver := l.r.recalFrom.isNone && s.overdue l (max s.time n)
    ∃ t, exec (.gateDeadline c n) s = .next t ∧ (isOver = false → t = { s with time := max s.time n }) ∧
      (isOver = true → l.r.destroy = none → ∃ x, t.ctx c = some x ∧ x.lastError = Err.timeout ∧ x.steps = l.x.steps ∧
        t.rd (diePage .plan l.r.lead) Reg.PLAN_TIMEOUT_COUNT =
          satAdd (s.rd (diePage .plan l.r.lead) Reg.PLAN_TIMEOUT_COUNT) 1) ∧ t.time = max s.time n) ∧
  (∀ (s : State) (c f : Nat) (l : Live), s.isUp → s.live c = some l → l.r.gate.isSome = true → l.r.released = true →
    let m := (f / 64 + 1) * 64
    l.fabSlot l.slot ≤ f → s.routersBefore l m = true →
    ∃ t, exec (.planResume c f) s = .next t ∧
      t.ctx c = some { l.x with run := some { l.r with gate := none, released := false, align := false, swapWaits := [], fslot := m, baseSlot := l.slot } } ∧
      (∀ j, j ≠ c → t.ctx j = s.ctx j) ∧
      t.rd (diePage .fab l.r.lead) Reg.FAB_ALIGN_SLOTS = satAdd (s.rd (diePage .fab l.r.lead) Reg.FAB_ALIGN_SLOTS) (m - f) ∧
      t = { s with regs := t.regs, ctxs := t.ctxs })

/-- O57. SPILL_START with the spill engine running and a paused request to spill marks its lowest frame as moving out to the
next far slot; with nothing to spill it does nothing. SPILL_COMPLETE frees the frame of a transfer that succeeded and keeps
the frame of one that failed; PREFETCH_START takes the first request of the queue when its frames can be given, and
otherwise leaves the queue. PREFETCH_COMPLETE makes the frame resident, with poison when the transfer failed; the frame of a
request that has ended returns to its pool. -/
def Obligations.FramesSpillAndComeBack : Prop :=
  (∀ (s : State) (die n : Nat), s.isUp → s.awake die = true → (s.pool die).spilling = true →
    s.fld (kvpPage die) Reg.KVP_SPILL_CFG 31 31 = 1 →
    ∃ t, exec (.spillStart die n) s = .next t ∧ t.time = max s.time n ∧
      (s.pausedOrder die = [] → s.spillOrder die = [] → t = { s with time := max s.time n }) ∧
      (∀ i x rest pg grp ent d c far o, s.pausedOrder die = (i, x) :: rest →
        (s.pagesOf x).find? (fun e => e.2.2.2.state == 1 && e.2.2.2.die == die) = some (pg, grp, ent, d) →
        s.ctx x.ctx = some c → c.farSlot = some far → look none (s.pool die).held d.frame = some o →
        look none (t.pool die).held d.frame = some ⟨i, x.ctx, ent, x.dir + 8 * ent, 1, far, false⟩ ∧
        (∀ f, f ≠ d.frame → look none (t.pool die).held f = look none (s.pool die).held f) ∧ (t.pool die).free = (s.pool die).free)) ∧
  (∀ (s : State) (die frame n : Nat) (good : Bool) (h : Holder), s.isUp → look none (s.pool die).held frame = some h → h.kind = 1 →
    ∃ t, exec (.spillComplete die frame good n) s = .next t ∧ t.time = max s.time n ∧
      (good = true ∨ h.orphan = true → look none (t.pool die).held frame = none ∧ (t.pool die).free = (s.pool die).free + 1 ∧
        (t.pool die).transit = (s.pool die).transit - 1) ∧
      (good = false → h.orphan = false → look none (t.pool die).held frame = some { h with kind := 0 } ∧
        (t.pool die).alloc = (s.pool die).alloc + 1 ∧ (t.pool die).free = (s.pool die).free) ∧
      (good = false → t.rd (kvpPage die) Reg.KVP_XFER_FAIL_COUNT = satAdd (s.rd (kvpPage die) Reg.KVP_XFER_FAIL_COUNT) 1) ∧
      (∀ f, f ≠ frame → look none (t.pool die).held f = look none (s.pool die).held f)) ∧
  (∀ (s : State) (die n : Nat), s.isUp → s.awake die = true → (s.pool die).holds = [] →
    ∃ t, exec (.prefetchStart die n) s = .next t ∧ t.time = max s.time n ∧ (s.fetchOrder die = [] → t = { s with time := max s.time n }) ∧
      (∀ i rest x, s.fetchOrder die = i :: rest → s.reqEnt i = some x →
        (s.mayFetch die (s.farEntries die x).length = false → t = { s with time := max s.time n }) ∧
        (s.mayFetch die (s.farEntries die x).length = true →
          (t.pool die).fetch = (s.pool die).fetch.filter (fun e => e.2 != i)))) ∧
  (∀ (s : State) (die frame n : Nat) (good : Bool) (data : Bytes) (h : Holder) (x : ReqEnt) (c : Ctx), s.isUp →
    look none (s.pool die).held frame = some h → h.kind = 2 → s.reqEnt h.req = some x → s.ctx h.ctx = some c →
    ∃ t, exec (.prefetchComplete die frame good data n) s = .next t ∧ t.time = max s.time n ∧
      (h.orphan = false → look none (t.pool die).held frame = some { h with kind := 0 } ∧
        (t.pool die).alloc = (s.pool die).alloc + 1 ∧ (t.pool die).transit = (s.pool die).transit - 1) ∧
      (h.orphan = true → look none (t.pool die).held frame = none ∧ (t.pool die).free = (s.pool die).free + 1) ∧
      (good = false → t.rd (kvpPage die) Reg.KVP_XFER_FAIL_COUNT = satAdd (s.rd (kvpPage die) Reg.KVP_XFER_FAIL_COUNT) 1) ∧
      (∀ f, f ≠ frame → look none (t.pool die).held f = look none (s.pool die).held f))

/-- O58. At reset no input has come: the package is not ready, no shutdown runs, no command waits, no register word differs from
its reset value, T1 lists nothing, no context, plan, request or queue exists, both power demands and the pacer stand at
1,000 ps, and every die is in W0. The pacer and T1 are sound there. (That the state before power is the reset state, and the
values no rule gives, are the model's: log entries 2 and 4.) -/
def Obligations.ResetState : Prop :=
  State.reset.boot.phase = 0 ∧ State.reset.ready = false ∧ State.reset.shut = none ∧ State.reset.pending = [] ∧
  State.reset.regs = [] ∧ State.reset.mem.t1 = [] ∧ State.reset.ctxs = [] ∧ State.reset.plans = [] ∧ State.reset.que.queues = [] ∧
  State.reset.req.entries = [] ∧ State.reset.req.free = 65536 ∧ State.reset.pwr.power = 1000 ∧ State.reset.pwr.thermal = 1000 ∧
  State.reset.pwr.pacer = 1000 ∧ (∀ d, (State.reset.wakeOf d).state = 0) ∧ State.reset.time = 0 ∧
  State.reset.pacerSound ∧ State.reset.memorySound

/-- O59. For every state in which each demand lies between 1,000 ps and 1,300 ps and the pacer p is the larger of the thermal
controller's demand and the power controller's, a step that answers a next state, whatever its command, leaves them so: p
always stays within 1,000 to 1,300 ps. -/
def Obligations.PacerStaysSound : Prop :=
  ∀ s t : State, s.pacerSound → step s = .next t → t.pacerSound ∧ 1000 ≤ t.pwr.pacer ∧ t.pwr.pacer ≤ 1300 ∧
    t.pwr.pacer = max t.pwr.power t.pwr.thermal

/-- O60. For every state whose T1 lists its bytes at strictly rising addresses with none equal to what an unlisted address reads
as, a step that answers a next state, whatever its command, leaves T1 so. -/
def Obligations.MemoryStaysSound : Prop :=
  ∀ s t : State, s.memorySound → step s = .next t → t.memorySound
end

