-- ==== Sys2Proof/Laws/Cells.lean ====
section
/-!
SUPPORT. What the check cells and the converters of an array keep: slices that add up to their group sum (R127, R128), cells that
hold what is written into them (R106), and a converter within its bound (R83).
-/

set_option Elab.async false

namespace Sys2Proof.Laws

open Sys2Proof.Machine

/-- The two slices of a group sum give it back (R127). -/
theorem slices_add_up (s : Int) : 16 * highSum s + lowSum s = s := by
  unfold highSum lowSum
  split <;> omega

/-- The slices of a sum of 16 cells fit a cell (R127). -/
theorem slices_fit (s : Int) (h : s.natAbs ≤ 240) : (highSum s).natAbs ≤ 15 ∧ (lowSum s).natAbs ≤ 15 := by
  unfold highSum lowSum
  split <;> omega

/-- The cells where check rows cross check columns hold zero (R128). -/
theorem crossing_cells_zero (data : Nat → Nat → Int) {r c : Nat} (hr : 512 ≤ r) (hc : 512 ≤ c) : fullCell data r c = 0 := by
  simp [fullCell, Nat.not_lt.mpr hr, Nat.not_lt.mpr hc]

/-- A data cell of the full plane is the data cell. -/
theorem data_cells_kept (data : Nat → Nat → Int) {r c : Nat} (hr : r < 512) (hc : c < 512) : fullCell data r c = data r c := by
  simp [fullCell, hr, hc]

/-- A cell holds every value from −15 to 15 (R106). -/
theorem cell_holds : ∀ n : Nat, n < 31 → cellVal (cellOf ((n : Int) - 15)) = (n : Int) - 15 := by decide

/-- A code within its figures is within one code of the sum once corrected (R83). -/
theorem good_code_bound {node : Bool} {k : Nat} {w : W32} {sum code : Int} (h : goodCode node k w sum code = true) :
    (corr16 code k w - 16 * sum).natAbs ≤ 16 * 2 ^ k := by
  simp only [goodCode, Bool.and_eq_true, decide_eq_true_eq] at h
  exact h.1.2

end Sys2Proof.Laws
end

