-- ==== Sys2Proof/Laws/Sparse.lean ====
section
/-!
SUPPORT. A sparse map reads back what was put at a key, keeps every other key, and keeps its canonical form.
-/

set_option Elab.async false

namespace Sys2Proof.Machine

variable {β : Type}

theorem look_filter_self (d : β) (m : Sparse β) (a : Nat) : look d (m.filter (fun e => e.1 != a)) a = d := by
  induction m with
  | nil => rfl
  | cons e m ih =>
    obtain ⟨k, v⟩ := e
    by_cases h : k = a
    · simpa [h] using ih
    · have : a ≠ k := fun q => h q.symm
      simp [h, look, this, ih]

theorem look_filter_other (d : β) (m : Sparse β) {a k : Nat} (h : k ≠ a) :
    look d (m.filter (fun e => e.1 != a)) k = look d m k := by
  induction m with
  | nil => rfl
  | cons e m ih =>
    obtain ⟨i, v⟩ := e
    by_cases hi : i = a
    · have : k ≠ i := hi ▸ h
      simp [hi, look, h, ih]
    · by_cases hk : k = i <;> simp [hi, look, hk, ih]

theorem look_place_self (d : β) (m : Sparse β) (a : Nat) (v : β) : look d (place m a v) a = v := by
  induction m with
  | nil => simp [place, look]
  | cons e m ih =>
    obtain ⟨k, w⟩ := e
    simp only [place]
    split
    · simp [look]
    · split
      · simp [look]
      · rename_i n; simp [look, n, ih]

theorem look_place_other (d : β) (m : Sparse β) {a k : Nat} (v : β) (h : k ≠ a) : look d (place m a v) k = look d m k := by
  induction m with
  | nil => simp [place, look, h]
  | cons e m ih =>
    obtain ⟨i, w⟩ := e
    simp only [place]
    split
    · simp [look, h]
    · split
      · rename_i n; simp [look, h, ← n]
      · simp only [look, ih]

/-- A read after a write to the same key gives the value written. -/
@[simp] theorem look_put_self [DecidableEq β] (d : β) (m : Sparse β) (a : Nat) (v : β) : look d (put d m a v) a = v := by
  unfold put; split
  · rename_i h; rw [look_filter_self, h]
  · exact look_place_self d m a v

/-- A write leaves every other key alone, whatever it reads as when unlisted. -/
theorem look_put_other [DecidableEq β] (c d : β) (m : Sparse β) {a k : Nat} (v : β) (h : k ≠ a) :
    look c (put d m a v) k = look c m k := by
  unfold put; split
  · exact look_filter_other c m h
  · exact look_place_other c m v h

theorem wfAbove_filter [DecidableEq β] {d : Nat → β} (p : Nat × β → Bool) {lo lo' : Nat} (h : lo ≤ lo') (m : Sparse β)
    (w : wfAbove d lo' m = true) : wfAbove d lo (m.filter p) = true := by
  induction m generalizing lo lo' with
  | nil => rfl
  | cons e m ih =>
    obtain ⟨k, v⟩ := e
    simp only [wfAbove, Bool.and_eq_true, decide_eq_true_eq] at w
    by_cases hp : p (k, v) = true
    · simp only [List.filter, hp, wfAbove, Bool.and_eq_true, decide_eq_true_eq]
      exact ⟨⟨by omega, w.1.2⟩, ih (Nat.le_refl _) w.2⟩
    · simp only [List.filter, Bool.not_eq_true _ ▸ hp]
      exact ih (by omega) w.2

theorem wfAbove_mono [DecidableEq β] {d : Nat → β} {lo lo' : Nat} (h : lo ≤ lo') {m : Sparse β}
    (w : wfAbove d lo' m = true) : wfAbove d lo m = true := by
  cases m with
  | nil => rfl
  | cons e m =>
    simp only [wfAbove, Bool.and_eq_true, decide_eq_true_eq] at w ⊢
    exact ⟨⟨by omega, w.1.2⟩, w.2⟩

theorem wfAbove_place [DecidableEq β] {d : Nat → β} {lo : Nat} {m : Sparse β} {a : Nat} {v : β} (ha : lo < a) (hv : v ≠ d a)
    (w : wfAbove d lo m = true) : wfAbove d lo (place m a v) = true := by
  induction m generalizing lo with
  | nil => simp [place, wfAbove, ha, hv]
  | cons e m ih =>
    obtain ⟨k, x⟩ := e
    simp only [wfAbove, Bool.and_eq_true, decide_eq_true_eq] at w
    simp only [place]
    split
    · simp [wfAbove, *]
    · split
      · rename_i h; subst h; simp [wfAbove, ha, hv, w.2]
      · simp only [wfAbove, Bool.and_eq_true, decide_eq_true_eq]
        exact ⟨w.1, ih (by omega) w.2⟩

/-- A write keeps the canonical form. -/
theorem sparseWf_put [DecidableEq β] {d : Nat → β} {m : Sparse β} (a : Nat) (v : β) (w : sparseWf d m = true) :
    sparseWf d (put (d a) m a v) = true := by
  have key : ∀ {m : Sparse β}, sparseWf d m = true → ∀ p, sparseWf d (m.filter p) = true := by
    intro m w p
    induction m with
    | nil => rfl
    | cons e m ih =>
      obtain ⟨k, x⟩ := e
      simp only [sparseWf, Bool.and_eq_true, decide_eq_true_eq] at w
      by_cases hp : p (k, x) = true
      · simp only [List.filter, hp, sparseWf, Bool.and_eq_true, decide_eq_true_eq]
        exact ⟨w.1, wfAbove_filter p (Nat.le_refl _) m w.2⟩
      · simp only [List.filter, Bool.not_eq_true _ ▸ hp]
        have t : sparseWf d m = true := by
          cases m with
          | nil => rfl
          | cons e m =>
            have h2 := w.2
            simp only [wfAbove, sparseWf, Bool.and_eq_true, decide_eq_true_eq] at h2 ⊢
            exact ⟨h2.1.2, h2.2⟩
        exact ih t
  unfold put; split
  · exact key w _
  · rename_i hv
    cases m with
    | nil => simp [place, sparseWf, wfAbove, hv]
    | cons e m =>
      obtain ⟨k, x⟩ := e
      simp only [sparseWf, Bool.and_eq_true, decide_eq_true_eq] at w
      simp only [place]
      split
      · simp [sparseWf, wfAbove, *]
      · split
        · rename_i h; subst h; simp [sparseWf, hv, w.2]
        · simp only [sparseWf, Bool.and_eq_true, decide_eq_true_eq]
          exact ⟨w.1, wfAbove_place (by omega) hv w.2⟩

end Sys2Proof.Machine
end

