-- ==== Sys2Proof/Laws/State.lean ====
section
/-!
SUPPORT. What each update of the state leaves as it was: one lemma for each field and each update.
-/

set_option Elab.async false

namespace Sys2Proof.Machine

@[simp] theorem State.spend_pending (s : State) : (s.spend).pending = s.pending := rfl
@[simp] theorem State.spend_variant (s : State) : (s.spend).variant = s.variant := rfl
@[simp] theorem State.spend_time (s : State) : (s.spend).time = s.time := rfl
@[simp] theorem State.spend_regs (s : State) : (s.spend).regs = s.regs := rfl
@[simp] theorem State.spend_sramFixed (s : State) : (s.spend).sramFixed = s.sramFixed := rfl
@[simp] theorem State.spend_sramWorn (s : State) : (s.spend).sramWorn = s.sramWorn := rfl
@[simp] theorem State.spend_out (s : State) : (s.spend).out = s.out := rfl
@[simp] theorem State.spend_sent (s : State) : (s.spend).sent = s.sent := rfl
@[simp] theorem State.spend_handles (s : State) : (s.spend).handles = s.handles := rfl
@[simp] theorem State.spend_mem (s : State) : (s.spend).mem = s.mem := rfl
@[simp] theorem State.spend_log (s : State) : (s.spend).log = s.log := rfl
@[simp] theorem State.spend_flash (s : State) : (s.spend).flash = s.flash := rfl
@[simp] theorem State.spend_ident (s : State) : (s.spend).ident = s.ident := rfl
@[simp] theorem State.spend_boot (s : State) : (s.spend).boot = s.boot := rfl
@[simp] theorem State.spend_pwr (s : State) : (s.spend).pwr = s.pwr := rfl
@[simp] theorem State.spend_wake (s : State) : (s.spend).wake = s.wake := rfl
@[simp] theorem State.spend_sensors (s : State) : (s.spend).sensors = s.sensors := rfl
@[simp] theorem State.spend_shut (s : State) : (s.spend).shut = s.shut := rfl
@[simp] theorem State.spend_que (s : State) : (s.spend).que = s.que := rfl
@[simp] theorem State.spend_syncs (s : State) : (s.spend).syncs = s.syncs := rfl
@[simp] theorem State.spend_ctxs (s : State) : (s.spend).ctxs = s.ctxs := rfl
@[simp] theorem State.spend_plans (s : State) : (s.spend).plans = s.plans := rfl
@[simp] theorem State.spend_gens (s : State) : (s.spend).gens = s.gens := rfl
@[simp] theorem State.spend_hashers (s : State) : (s.spend).hashers = s.hashers := rfl
@[simp] theorem State.spend_chans (s : State) : (s.spend).chans = s.chans := rfl
@[simp] theorem State.spend_ports (s : State) : (s.spend).ports = s.ports := rfl
@[simp] theorem State.spend_optics (s : State) : (s.spend).optics = s.optics := rfl
@[simp] theorem State.spend_req (s : State) : (s.spend).req = s.req := rfl
@[simp] theorem State.spend_pools (s : State) : (s.spend).pools = s.pools := rfl
@[simp] theorem State.spend_arrs (s : State) : (s.spend).arrs = s.arrs := rfl
@[simp] theorem State.spend_bents (s : State) : (s.spend).bents = s.bents := rfl
@[simp] theorem State.spend_atts (s : State) : (s.spend).atts = s.atts := rfl
@[simp] theorem State.spend_grads (s : State) : (s.spend).grads = s.grads := rfl
@[simp] theorem State.spend_folds (s : State) : (s.spend).folds = s.folds := rfl
@[simp] theorem State.spend_cals (s : State) : (s.spend).cals = s.cals := rfl
@[simp] theorem State.spend_owners (s : State) : (s.spend).owners = s.owners := rfl
@[simp] theorem State.spend_fab (s : State) : (s.spend).fab = s.fab := rfl
@[simp] theorem State.spend_snap (s : State) : (s.spend).snap = s.snap := rfl

@[simp] theorem State.at_pending (s : State) (t : Nat) : (s.at t).pending = s.pending := rfl
@[simp] theorem State.at_variant (s : State) (t : Nat) : (s.at t).variant = s.variant := rfl
@[simp] theorem State.at_free (s : State) (t : Nat) : (s.at t).free = s.free := rfl
@[simp] theorem State.at_regs (s : State) (t : Nat) : (s.at t).regs = s.regs := rfl
@[simp] theorem State.at_sramFixed (s : State) (t : Nat) : (s.at t).sramFixed = s.sramFixed := rfl
@[simp] theorem State.at_sramWorn (s : State) (t : Nat) : (s.at t).sramWorn = s.sramWorn := rfl
@[simp] theorem State.at_out (s : State) (t : Nat) : (s.at t).out = s.out := rfl
@[simp] theorem State.at_sent (s : State) (t : Nat) : (s.at t).sent = s.sent := rfl
@[simp] theorem State.at_handles (s : State) (t : Nat) : (s.at t).handles = s.handles := rfl
@[simp] theorem State.at_mem (s : State) (t : Nat) : (s.at t).mem = s.mem := rfl
@[simp] theorem State.at_log (s : State) (t : Nat) : (s.at t).log = s.log := rfl
@[simp] theorem State.at_flash (s : State) (t : Nat) : (s.at t).flash = s.flash := rfl
@[simp] theorem State.at_ident (s : State) (t : Nat) : (s.at t).ident = s.ident := rfl
@[simp] theorem State.at_boot (s : State) (t : Nat) : (s.at t).boot = s.boot := rfl
@[simp] theorem State.at_pwr (s : State) (t : Nat) : (s.at t).pwr = s.pwr := rfl
@[simp] theorem State.at_wake (s : State) (t : Nat) : (s.at t).wake = s.wake := rfl
@[simp] theorem State.at_sensors (s : State) (t : Nat) : (s.at t).sensors = s.sensors := rfl
@[simp] theorem State.at_shut (s : State) (t : Nat) : (s.at t).shut = s.shut := rfl
@[simp] theorem State.at_que (s : State) (t : Nat) : (s.at t).que = s.que := rfl
@[simp] theorem State.at_syncs (s : State) (t : Nat) : (s.at t).syncs = s.syncs := rfl
@[simp] theorem State.at_ctxs (s : State) (t : Nat) : (s.at t).ctxs = s.ctxs := rfl
@[simp] theorem State.at_plans (s : State) (t : Nat) : (s.at t).plans = s.plans := rfl
@[simp] theorem State.at_gens (s : State) (t : Nat) : (s.at t).gens = s.gens := rfl
@[simp] theorem State.at_hashers (s : State) (t : Nat) : (s.at t).hashers = s.hashers := rfl
@[simp] theorem State.at_chans (s : State) (t : Nat) : (s.at t).chans = s.chans := rfl
@[simp] theorem State.at_ports (s : State) (t : Nat) : (s.at t).ports = s.ports := rfl
@[simp] theorem State.at_optics (s : State) (t : Nat) : (s.at t).optics = s.optics := rfl
@[simp] theorem State.at_req (s : State) (t : Nat) : (s.at t).req = s.req := rfl
@[simp] theorem State.at_pools (s : State) (t : Nat) : (s.at t).pools = s.pools := rfl
@[simp] theorem State.at_arrs (s : State) (t : Nat) : (s.at t).arrs = s.arrs := rfl
@[simp] theorem State.at_bents (s : State) (t : Nat) : (s.at t).bents = s.bents := rfl
@[simp] theorem State.at_atts (s : State) (t : Nat) : (s.at t).atts = s.atts := rfl
@[simp] theorem State.at_grads (s : State) (t : Nat) : (s.at t).grads = s.grads := rfl
@[simp] theorem State.at_folds (s : State) (t : Nat) : (s.at t).folds = s.folds := rfl
@[simp] theorem State.at_cals (s : State) (t : Nat) : (s.at t).cals = s.cals := rfl
@[simp] theorem State.at_owners (s : State) (t : Nat) : (s.at t).owners = s.owners := rfl
@[simp] theorem State.at_fab (s : State) (t : Nat) : (s.at t).fab = s.fab := rfl
@[simp] theorem State.at_snap (s : State) (t : Nat) : (s.at t).snap = s.snap := rfl

@[simp] theorem State.setCtx_pending (s : State) (c : Nat) (x : Option Ctx) : (s.setCtx c x).pending = s.pending := rfl
@[simp] theorem State.setCtx_variant (s : State) (c : Nat) (x : Option Ctx) : (s.setCtx c x).variant = s.variant := rfl
@[simp] theorem State.setCtx_time (s : State) (c : Nat) (x : Option Ctx) : (s.setCtx c x).time = s.time := rfl
@[simp] theorem State.setCtx_free (s : State) (c : Nat) (x : Option Ctx) : (s.setCtx c x).free = s.free := rfl
@[simp] theorem State.setCtx_regs (s : State) (c : Nat) (x : Option Ctx) : (s.setCtx c x).regs = s.regs := rfl
@[simp] theorem State.setCtx_sramFixed (s : State) (c : Nat) (x : Option Ctx) : (s.setCtx c x).sramFixed = s.sramFixed := rfl
@[simp] theorem State.setCtx_sramWorn (s : State) (c : Nat) (x : Option Ctx) : (s.setCtx c x).sramWorn = s.sramWorn := rfl
@[simp] theorem State.setCtx_out (s : State) (c : Nat) (x : Option Ctx) : (s.setCtx c x).out = s.out := rfl
@[simp] theorem State.setCtx_sent (s : State) (c : Nat) (x : Option Ctx) : (s.setCtx c x).sent = s.sent := rfl
@[simp] theorem State.setCtx_handles (s : State) (c : Nat) (x : Option Ctx) : (s.setCtx c x).handles = s.handles := rfl
@[simp] theorem State.setCtx_mem (s : State) (c : Nat) (x : Option Ctx) : (s.setCtx c x).mem = s.mem := rfl
@[simp] theorem State.setCtx_log (s : State) (c : Nat) (x : Option Ctx) : (s.setCtx c x).log = s.log := rfl
@[simp] theorem State.setCtx_flash (s : State) (c : Nat) (x : Option Ctx) : (s.setCtx c x).flash = s.flash := rfl
@[simp] theorem State.setCtx_ident (s : State) (c : Nat) (x : Option Ctx) : (s.setCtx c x).ident = s.ident := rfl
@[simp] theorem State.setCtx_boot (s : State) (c : Nat) (x : Option Ctx) : (s.setCtx c x).boot = s.boot := rfl
@[simp] theorem State.setCtx_pwr (s : State) (c : Nat) (x : Option Ctx) : (s.setCtx c x).pwr = s.pwr := rfl
@[simp] theorem State.setCtx_wake (s : State) (c : Nat) (x : Option Ctx) : (s.setCtx c x).wake = s.wake := rfl
@[simp] theorem State.setCtx_sensors (s : State) (c : Nat) (x : Option Ctx) : (s.setCtx c x).sensors = s.sensors := rfl
@[simp] theorem State.setCtx_shut (s : State) (c : Nat) (x : Option Ctx) : (s.setCtx c x).shut = s.shut := rfl
@[simp] theorem State.setCtx_que (s : State) (c : Nat) (x : Option Ctx) : (s.setCtx c x).que = s.que := rfl
@[simp] theorem State.setCtx_syncs (s : State) (c : Nat) (x : Option Ctx) : (s.setCtx c x).syncs = s.syncs := rfl
@[simp] theorem State.setCtx_plans (s : State) (c : Nat) (x : Option Ctx) : (s.setCtx c x).plans = s.plans := rfl
@[simp] theorem State.setCtx_gens (s : State) (c : Nat) (x : Option Ctx) : (s.setCtx c x).gens = s.gens := rfl
@[simp] theorem State.setCtx_hashers (s : State) (c : Nat) (x : Option Ctx) : (s.setCtx c x).hashers = s.hashers := rfl
@[simp] theorem State.setCtx_chans (s : State) (c : Nat) (x : Option Ctx) : (s.setCtx c x).chans = s.chans := rfl
@[simp] theorem State.setCtx_ports (s : State) (c : Nat) (x : Option Ctx) : (s.setCtx c x).ports = s.ports := rfl
@[simp] theorem State.setCtx_optics (s : State) (c : Nat) (x : Option Ctx) : (s.setCtx c x).optics = s.optics := rfl
@[simp] theorem State.setCtx_req (s : State) (c : Nat) (x : Option Ctx) : (s.setCtx c x).req = s.req := rfl
@[simp] theorem State.setCtx_pools (s : State) (c : Nat) (x : Option Ctx) : (s.setCtx c x).pools = s.pools := rfl
@[simp] theorem State.setCtx_arrs (s : State) (c : Nat) (x : Option Ctx) : (s.setCtx c x).arrs = s.arrs := rfl
@[simp] theorem State.setCtx_bents (s : State) (c : Nat) (x : Option Ctx) : (s.setCtx c x).bents = s.bents := rfl
@[simp] theorem State.setCtx_atts (s : State) (c : Nat) (x : Option Ctx) : (s.setCtx c x).atts = s.atts := rfl
@[simp] theorem State.setCtx_grads (s : State) (c : Nat) (x : Option Ctx) : (s.setCtx c x).grads = s.grads := rfl
@[simp] theorem State.setCtx_folds (s : State) (c : Nat) (x : Option Ctx) : (s.setCtx c x).folds = s.folds := rfl
@[simp] theorem State.setCtx_cals (s : State) (c : Nat) (x : Option Ctx) : (s.setCtx c x).cals = s.cals := rfl
@[simp] theorem State.setCtx_owners (s : State) (c : Nat) (x : Option Ctx) : (s.setCtx c x).owners = s.owners := rfl
@[simp] theorem State.setCtx_fab (s : State) (c : Nat) (x : Option Ctx) : (s.setCtx c x).fab = s.fab := rfl
@[simp] theorem State.setCtx_snap (s : State) (c : Nat) (x : Option Ctx) : (s.setCtx c x).snap = s.snap := rfl

@[simp] theorem State.setArr_pending (s : State) (d b a : Nat) (x : Arr) : (s.setArr d b a x).pending = s.pending := rfl
@[simp] theorem State.setArr_variant (s : State) (d b a : Nat) (x : Arr) : (s.setArr d b a x).variant = s.variant := rfl
@[simp] theorem State.setArr_time (s : State) (d b a : Nat) (x : Arr) : (s.setArr d b a x).time = s.time := rfl
@[simp] theorem State.setArr_free (s : State) (d b a : Nat) (x : Arr) : (s.setArr d b a x).free = s.free := rfl
@[simp] theorem State.setArr_regs (s : State) (d b a : Nat) (x : Arr) : (s.setArr d b a x).regs = s.regs := rfl
@[simp] theorem State.setArr_sramFixed (s : State) (d b a : Nat) (x : Arr) : (s.setArr d b a x).sramFixed = s.sramFixed := rfl
@[simp] theorem State.setArr_sramWorn (s : State) (d b a : Nat) (x : Arr) : (s.setArr d b a x).sramWorn = s.sramWorn := rfl
@[simp] theorem State.setArr_out (s : State) (d b a : Nat) (x : Arr) : (s.setArr d b a x).out = s.out := rfl
@[simp] theorem State.setArr_sent (s : State) (d b a : Nat) (x : Arr) : (s.setArr d b a x).sent = s.sent := rfl
@[simp] theorem State.setArr_handles (s : State) (d b a : Nat) (x : Arr) : (s.setArr d b a x).handles = s.handles := rfl
@[simp] theorem State.setArr_mem (s : State) (d b a : Nat) (x : Arr) : (s.setArr d b a x).mem = s.mem := rfl
@[simp] theorem State.setArr_log (s : State) (d b a : Nat) (x : Arr) : (s.setArr d b a x).log = s.log := rfl
@[simp] theorem State.setArr_flash (s : State) (d b a : Nat) (x : Arr) : (s.setArr d b a x).flash = s.flash := rfl
@[simp] theorem State.setArr_ident (s : State) (d b a : Nat) (x : Arr) : (s.setArr d b a x).ident = s.ident := rfl
@[simp] theorem State.setArr_boot (s : State) (d b a : Nat) (x : Arr) : (s.setArr d b a x).boot = s.boot := rfl
@[simp] theorem State.setArr_pwr (s : State) (d b a : Nat) (x : Arr) : (s.setArr d b a x).pwr = s.pwr := rfl
@[simp] theorem State.setArr_wake (s : State) (d b a : Nat) (x : Arr) : (s.setArr d b a x).wake = s.wake := rfl
@[simp] theorem State.setArr_sensors (s : State) (d b a : Nat) (x : Arr) : (s.setArr d b a x).sensors = s.sensors := rfl
@[simp] theorem State.setArr_shut (s : State) (d b a : Nat) (x : Arr) : (s.setArr d b a x).shut = s.shut := rfl
@[simp] theorem State.setArr_que (s : State) (d b a : Nat) (x : Arr) : (s.setArr d b a x).que = s.que := rfl
@[simp] theorem State.setArr_syncs (s : State) (d b a : Nat) (x : Arr) : (s.setArr d b a x).syncs = s.syncs := rfl
@[simp] theorem State.setArr_ctxs (s : State) (d b a : Nat) (x : Arr) : (s.setArr d b a x).ctxs = s.ctxs := rfl
@[simp] theorem State.setArr_plans (s : State) (d b a : Nat) (x : Arr) : (s.setArr d b a x).plans = s.plans := rfl
@[simp] theorem State.setArr_gens (s : State) (d b a : Nat) (x : Arr) : (s.setArr d b a x).gens = s.gens := rfl
@[simp] theorem State.setArr_hashers (s : State) (d b a : Nat) (x : Arr) : (s.setArr d b a x).hashers = s.hashers := rfl
@[simp] theorem State.setArr_chans (s : State) (d b a : Nat) (x : Arr) : (s.setArr d b a x).chans = s.chans := rfl
@[simp] theorem State.setArr_ports (s : State) (d b a : Nat) (x : Arr) : (s.setArr d b a x).ports = s.ports := rfl
@[simp] theorem State.setArr_optics (s : State) (d b a : Nat) (x : Arr) : (s.setArr d b a x).optics = s.optics := rfl
@[simp] theorem State.setArr_req (s : State) (d b a : Nat) (x : Arr) : (s.setArr d b a x).req = s.req := rfl
@[simp] theorem State.setArr_pools (s : State) (d b a : Nat) (x : Arr) : (s.setArr d b a x).pools = s.pools := rfl
@[simp] theorem State.setArr_bents (s : State) (d b a : Nat) (x : Arr) : (s.setArr d b a x).bents = s.bents := rfl
@[simp] theorem State.setArr_atts (s : State) (d b a : Nat) (x : Arr) : (s.setArr d b a x).atts = s.atts := rfl
@[simp] theorem State.setArr_grads (s : State) (d b a : Nat) (x : Arr) : (s.setArr d b a x).grads = s.grads := rfl
@[simp] theorem State.setArr_folds (s : State) (d b a : Nat) (x : Arr) : (s.setArr d b a x).folds = s.folds := rfl
@[simp] theorem State.setArr_cals (s : State) (d b a : Nat) (x : Arr) : (s.setArr d b a x).cals = s.cals := rfl
@[simp] theorem State.setArr_owners (s : State) (d b a : Nat) (x : Arr) : (s.setArr d b a x).owners = s.owners := rfl
@[simp] theorem State.setArr_fab (s : State) (d b a : Nat) (x : Arr) : (s.setArr d b a x).fab = s.fab := rfl
@[simp] theorem State.setArr_snap (s : State) (d b a : Nat) (x : Arr) : (s.setArr d b a x).snap = s.snap := rfl

@[simp] theorem State.setBent_pending (s : State) (d b : Nat) (x : Bent) : (s.setBent d b x).pending = s.pending := rfl
@[simp] theorem State.setBent_variant (s : State) (d b : Nat) (x : Bent) : (s.setBent d b x).variant = s.variant := rfl
@[simp] theorem State.setBent_time (s : State) (d b : Nat) (x : Bent) : (s.setBent d b x).time = s.time := rfl
@[simp] theorem State.setBent_free (s : State) (d b : Nat) (x : Bent) : (s.setBent d b x).free = s.free := rfl
@[simp] theorem State.setBent_regs (s : State) (d b : Nat) (x : Bent) : (s.setBent d b x).regs = s.regs := rfl
@[simp] theorem State.setBent_sramFixed (s : State) (d b : Nat) (x : Bent) : (s.setBent d b x).sramFixed = s.sramFixed := rfl
@[simp] theorem State.setBent_sramWorn (s : State) (d b : Nat) (x : Bent) : (s.setBent d b x).sramWorn = s.sramWorn := rfl
@[simp] theorem State.setBent_out (s : State) (d b : Nat) (x : Bent) : (s.setBent d b x).out = s.out := rfl
@[simp] theorem State.setBent_sent (s : State) (d b : Nat) (x : Bent) : (s.setBent d b x).sent = s.sent := rfl
@[simp] theorem State.setBent_handles (s : State) (d b : Nat) (x : Bent) : (s.setBent d b x).handles = s.handles := rfl
@[simp] theorem State.setBent_mem (s : State) (d b : Nat) (x : Bent) : (s.setBent d b x).mem = s.mem := rfl
@[simp] theorem State.setBent_log (s : State) (d b : Nat) (x : Bent) : (s.setBent d b x).log = s.log := rfl
@[simp] theorem State.setBent_flash (s : State) (d b : Nat) (x : Bent) : (s.setBent d b x).flash = s.flash := rfl
@[simp] theorem State.setBent_ident (s : State) (d b : Nat) (x : Bent) : (s.setBent d b x).ident = s.ident := rfl
@[simp] theorem State.setBent_boot (s : State) (d b : Nat) (x : Bent) : (s.setBent d b x).boot = s.boot := rfl
@[simp] theorem State.setBent_pwr (s : State) (d b : Nat) (x : Bent) : (s.setBent d b x).pwr = s.pwr := rfl
@[simp] theorem State.setBent_wake (s : State) (d b : Nat) (x : Bent) : (s.setBent d b x).wake = s.wake := rfl
@[simp] theorem State.setBent_sensors (s : State) (d b : Nat) (x : Bent) : (s.setBent d b x).sensors = s.sensors := rfl
@[simp] theorem State.setBent_shut (s : State) (d b : Nat) (x : Bent) : (s.setBent d b x).shut = s.shut := rfl
@[simp] theorem State.setBent_que (s : State) (d b : Nat) (x : Bent) : (s.setBent d b x).que = s.que := rfl
@[simp] theorem State.setBent_syncs (s : State) (d b : Nat) (x : Bent) : (s.setBent d b x).syncs = s.syncs := rfl
@[simp] theorem State.setBent_ctxs (s : State) (d b : Nat) (x : Bent) : (s.setBent d b x).ctxs = s.ctxs := rfl
@[simp] theorem State.setBent_plans (s : State) (d b : Nat) (x : Bent) : (s.setBent d b x).plans = s.plans := rfl
@[simp] theorem State.setBent_gens (s : State) (d b : Nat) (x : Bent) : (s.setBent d b x).gens = s.gens := rfl
@[simp] theorem State.setBent_hashers (s : State) (d b : Nat) (x : Bent) : (s.setBent d b x).hashers = s.hashers := rfl
@[simp] theorem State.setBent_chans (s : State) (d b : Nat) (x : Bent) : (s.setBent d b x).chans = s.chans := rfl
@[simp] theorem State.setBent_ports (s : State) (d b : Nat) (x : Bent) : (s.setBent d b x).ports = s.ports := rfl
@[simp] theorem State.setBent_optics (s : State) (d b : Nat) (x : Bent) : (s.setBent d b x).optics = s.optics := rfl
@[simp] theorem State.setBent_req (s : State) (d b : Nat) (x : Bent) : (s.setBent d b x).req = s.req := rfl
@[simp] theorem State.setBent_pools (s : State) (d b : Nat) (x : Bent) : (s.setBent d b x).pools = s.pools := rfl
@[simp] theorem State.setBent_arrs (s : State) (d b : Nat) (x : Bent) : (s.setBent d b x).arrs = s.arrs := rfl
@[simp] theorem State.setBent_atts (s : State) (d b : Nat) (x : Bent) : (s.setBent d b x).atts = s.atts := rfl
@[simp] theorem State.setBent_grads (s : State) (d b : Nat) (x : Bent) : (s.setBent d b x).grads = s.grads := rfl
@[simp] theorem State.setBent_folds (s : State) (d b : Nat) (x : Bent) : (s.setBent d b x).folds = s.folds := rfl
@[simp] theorem State.setBent_cals (s : State) (d b : Nat) (x : Bent) : (s.setBent d b x).cals = s.cals := rfl
@[simp] theorem State.setBent_owners (s : State) (d b : Nat) (x : Bent) : (s.setBent d b x).owners = s.owners := rfl
@[simp] theorem State.setBent_fab (s : State) (d b : Nat) (x : Bent) : (s.setBent d b x).fab = s.fab := rfl
@[simp] theorem State.setBent_snap (s : State) (d b : Nat) (x : Bent) : (s.setBent d b x).snap = s.snap := rfl

@[simp] theorem State.setAtt_pending (s : State) (d e : Nat) (x : AttEng) : (s.setAtt d e x).pending = s.pending := rfl
@[simp] theorem State.setAtt_variant (s : State) (d e : Nat) (x : AttEng) : (s.setAtt d e x).variant = s.variant := rfl
@[simp] theorem State.setAtt_time (s : State) (d e : Nat) (x : AttEng) : (s.setAtt d e x).time = s.time := rfl
@[simp] theorem State.setAtt_free (s : State) (d e : Nat) (x : AttEng) : (s.setAtt d e x).free = s.free := rfl
@[simp] theorem State.setAtt_regs (s : State) (d e : Nat) (x : AttEng) : (s.setAtt d e x).regs = s.regs := rfl
@[simp] theorem State.setAtt_sramFixed (s : State) (d e : Nat) (x : AttEng) : (s.setAtt d e x).sramFixed = s.sramFixed := rfl
@[simp] theorem State.setAtt_sramWorn (s : State) (d e : Nat) (x : AttEng) : (s.setAtt d e x).sramWorn = s.sramWorn := rfl
@[simp] theorem State.setAtt_out (s : State) (d e : Nat) (x : AttEng) : (s.setAtt d e x).out = s.out := rfl
@[simp] theorem State.setAtt_sent (s : State) (d e : Nat) (x : AttEng) : (s.setAtt d e x).sent = s.sent := rfl
@[simp] theorem State.setAtt_handles (s : State) (d e : Nat) (x : AttEng) : (s.setAtt d e x).handles = s.handles := rfl
@[simp] theorem State.setAtt_mem (s : State) (d e : Nat) (x : AttEng) : (s.setAtt d e x).mem = s.mem := rfl
@[simp] theorem State.setAtt_log (s : State) (d e : Nat) (x : AttEng) : (s.setAtt d e x).log = s.log := rfl
@[simp] theorem State.setAtt_flash (s : State) (d e : Nat) (x : AttEng) : (s.setAtt d e x).flash = s.flash := rfl
@[simp] theorem State.setAtt_ident (s : State) (d e : Nat) (x : AttEng) : (s.setAtt d e x).ident = s.ident := rfl
@[simp] theorem State.setAtt_boot (s : State) (d e : Nat) (x : AttEng) : (s.setAtt d e x).boot = s.boot := rfl
@[simp] theorem State.setAtt_pwr (s : State) (d e : Nat) (x : AttEng) : (s.setAtt d e x).pwr = s.pwr := rfl
@[simp] theorem State.setAtt_wake (s : State) (d e : Nat) (x : AttEng) : (s.setAtt d e x).wake = s.wake := rfl
@[simp] theorem State.setAtt_sensors (s : State) (d e : Nat) (x : AttEng) : (s.setAtt d e x).sensors = s.sensors := rfl
@[simp] theorem State.setAtt_shut (s : State) (d e : Nat) (x : AttEng) : (s.setAtt d e x).shut = s.shut := rfl
@[simp] theorem State.setAtt_que (s : State) (d e : Nat) (x : AttEng) : (s.setAtt d e x).que = s.que := rfl
@[simp] theorem State.setAtt_syncs (s : State) (d e : Nat) (x : AttEng) : (s.setAtt d e x).syncs = s.syncs := rfl
@[simp] theorem State.setAtt_ctxs (s : State) (d e : Nat) (x : AttEng) : (s.setAtt d e x).ctxs = s.ctxs := rfl
@[simp] theorem State.setAtt_plans (s : State) (d e : Nat) (x : AttEng) : (s.setAtt d e x).plans = s.plans := rfl
@[simp] theorem State.setAtt_gens (s : State) (d e : Nat) (x : AttEng) : (s.setAtt d e x).gens = s.gens := rfl
@[simp] theorem State.setAtt_hashers (s : State) (d e : Nat) (x : AttEng) : (s.setAtt d e x).hashers = s.hashers := rfl
@[simp] theorem State.setAtt_chans (s : State) (d e : Nat) (x : AttEng) : (s.setAtt d e x).chans = s.chans := rfl
@[simp] theorem State.setAtt_ports (s : State) (d e : Nat) (x : AttEng) : (s.setAtt d e x).ports = s.ports := rfl
@[simp] theorem State.setAtt_optics (s : State) (d e : Nat) (x : AttEng) : (s.setAtt d e x).optics = s.optics := rfl
@[simp] theorem State.setAtt_req (s : State) (d e : Nat) (x : AttEng) : (s.setAtt d e x).req = s.req := rfl
@[simp] theorem State.setAtt_pools (s : State) (d e : Nat) (x : AttEng) : (s.setAtt d e x).pools = s.pools := rfl
@[simp] theorem State.setAtt_arrs (s : State) (d e : Nat) (x : AttEng) : (s.setAtt d e x).arrs = s.arrs := rfl
@[simp] theorem State.setAtt_bents (s : State) (d e : Nat) (x : AttEng) : (s.setAtt d e x).bents = s.bents := rfl
@[simp] theorem State.setAtt_grads (s : State) (d e : Nat) (x : AttEng) : (s.setAtt d e x).grads = s.grads := rfl
@[simp] theorem State.setAtt_folds (s : State) (d e : Nat) (x : AttEng) : (s.setAtt d e x).folds = s.folds := rfl
@[simp] theorem State.setAtt_cals (s : State) (d e : Nat) (x : AttEng) : (s.setAtt d e x).cals = s.cals := rfl
@[simp] theorem State.setAtt_owners (s : State) (d e : Nat) (x : AttEng) : (s.setAtt d e x).owners = s.owners := rfl
@[simp] theorem State.setAtt_fab (s : State) (d e : Nat) (x : AttEng) : (s.setAtt d e x).fab = s.fab := rfl
@[simp] theorem State.setAtt_snap (s : State) (d e : Nat) (x : AttEng) : (s.setAtt d e x).snap = s.snap := rfl

@[simp] theorem State.setGrad_pending (s : State) (d e : Nat) (x : GUnit) : (s.setGrad d e x).pending = s.pending := rfl
@[simp] theorem State.setGrad_variant (s : State) (d e : Nat) (x : GUnit) : (s.setGrad d e x).variant = s.variant := rfl
@[simp] theorem State.setGrad_time (s : State) (d e : Nat) (x : GUnit) : (s.setGrad d e x).time = s.time := rfl
@[simp] theorem State.setGrad_free (s : State) (d e : Nat) (x : GUnit) : (s.setGrad d e x).free = s.free := rfl
@[simp] theorem State.setGrad_regs (s : State) (d e : Nat) (x : GUnit) : (s.setGrad d e x).regs = s.regs := rfl
@[simp] theorem State.setGrad_sramFixed (s : State) (d e : Nat) (x : GUnit) : (s.setGrad d e x).sramFixed = s.sramFixed := rfl
@[simp] theorem State.setGrad_sramWorn (s : State) (d e : Nat) (x : GUnit) : (s.setGrad d e x).sramWorn = s.sramWorn := rfl
@[simp] theorem State.setGrad_out (s : State) (d e : Nat) (x : GUnit) : (s.setGrad d e x).out = s.out := rfl
@[simp] theorem State.setGrad_sent (s : State) (d e : Nat) (x : GUnit) : (s.setGrad d e x).sent = s.sent := rfl
@[simp] theorem State.setGrad_handles (s : State) (d e : Nat) (x : GUnit) : (s.setGrad d e x).handles = s.handles := rfl
@[simp] theorem State.setGrad_mem (s : State) (d e : Nat) (x : GUnit) : (s.setGrad d e x).mem = s.mem := rfl
@[simp] theorem State.setGrad_log (s : State) (d e : Nat) (x : GUnit) : (s.setGrad d e x).log = s.log := rfl
@[simp] theorem State.setGrad_flash (s : State) (d e : Nat) (x : GUnit) : (s.setGrad d e x).flash = s.flash := rfl
@[simp] theorem State.setGrad_ident (s : State) (d e : Nat) (x : GUnit) : (s.setGrad d e x).ident = s.ident := rfl
@[simp] theorem State.setGrad_boot (s : State) (d e : Nat) (x : GUnit) : (s.setGrad d e x).boot = s.boot := rfl
@[simp] theorem State.setGrad_pwr (s : State) (d e : Nat) (x : GUnit) : (s.setGrad d e x).pwr = s.pwr := rfl
@[simp] theorem State.setGrad_wake (s : State) (d e : Nat) (x : GUnit) : (s.setGrad d e x).wake = s.wake := rfl
@[simp] theorem State.setGrad_sensors (s : State) (d e : Nat) (x : GUnit) : (s.setGrad d e x).sensors = s.sensors := rfl
@[simp] theorem State.setGrad_shut (s : State) (d e : Nat) (x : GUnit) : (s.setGrad d e x).shut = s.shut := rfl
@[simp] theorem State.setGrad_que (s : State) (d e : Nat) (x : GUnit) : (s.setGrad d e x).que = s.que := rfl
@[simp] theorem State.setGrad_syncs (s : State) (d e : Nat) (x : GUnit) : (s.setGrad d e x).syncs = s.syncs := rfl
@[simp] theorem State.setGrad_ctxs (s : State) (d e : Nat) (x : GUnit) : (s.setGrad d e x).ctxs = s.ctxs := rfl
@[simp] theorem State.setGrad_plans (s : State) (d e : Nat) (x : GUnit) : (s.setGrad d e x).plans = s.plans := rfl
@[simp] theorem State.setGrad_gens (s : State) (d e : Nat) (x : GUnit) : (s.setGrad d e x).gens = s.gens := rfl
@[simp] theorem State.setGrad_hashers (s : State) (d e : Nat) (x : GUnit) : (s.setGrad d e x).hashers = s.hashers := rfl
@[simp] theorem State.setGrad_chans (s : State) (d e : Nat) (x : GUnit) : (s.setGrad d e x).chans = s.chans := rfl
@[simp] theorem State.setGrad_ports (s : State) (d e : Nat) (x : GUnit) : (s.setGrad d e x).ports = s.ports := rfl
@[simp] theorem State.setGrad_optics (s : State) (d e : Nat) (x : GUnit) : (s.setGrad d e x).optics = s.optics := rfl
@[simp] theorem State.setGrad_req (s : State) (d e : Nat) (x : GUnit) : (s.setGrad d e x).req = s.req := rfl
@[simp] theorem State.setGrad_pools (s : State) (d e : Nat) (x : GUnit) : (s.setGrad d e x).pools = s.pools := rfl
@[simp] theorem State.setGrad_arrs (s : State) (d e : Nat) (x : GUnit) : (s.setGrad d e x).arrs = s.arrs := rfl
@[simp] theorem State.setGrad_bents (s : State) (d e : Nat) (x : GUnit) : (s.setGrad d e x).bents = s.bents := rfl
@[simp] theorem State.setGrad_atts (s : State) (d e : Nat) (x : GUnit) : (s.setGrad d e x).atts = s.atts := rfl
@[simp] theorem State.setGrad_folds (s : State) (d e : Nat) (x : GUnit) : (s.setGrad d e x).folds = s.folds := rfl
@[simp] theorem State.setGrad_cals (s : State) (d e : Nat) (x : GUnit) : (s.setGrad d e x).cals = s.cals := rfl
@[simp] theorem State.setGrad_owners (s : State) (d e : Nat) (x : GUnit) : (s.setGrad d e x).owners = s.owners := rfl
@[simp] theorem State.setGrad_fab (s : State) (d e : Nat) (x : GUnit) : (s.setGrad d e x).fab = s.fab := rfl
@[simp] theorem State.setGrad_snap (s : State) (d e : Nat) (x : GUnit) : (s.setGrad d e x).snap = s.snap := rfl

@[simp] theorem State.setCal_pending (s : State) (d b : Nat) (x : CalBent) : (s.setCal d b x).pending = s.pending := rfl
@[simp] theorem State.setCal_variant (s : State) (d b : Nat) (x : CalBent) : (s.setCal d b x).variant = s.variant := rfl
@[simp] theorem State.setCal_time (s : State) (d b : Nat) (x : CalBent) : (s.setCal d b x).time = s.time := rfl
@[simp] theorem State.setCal_free (s : State) (d b : Nat) (x : CalBent) : (s.setCal d b x).free = s.free := rfl
@[simp] theorem State.setCal_regs (s : State) (d b : Nat) (x : CalBent) : (s.setCal d b x).regs = s.regs := rfl
@[simp] theorem State.setCal_sramFixed (s : State) (d b : Nat) (x : CalBent) : (s.setCal d b x).sramFixed = s.sramFixed := rfl
@[simp] theorem State.setCal_sramWorn (s : State) (d b : Nat) (x : CalBent) : (s.setCal d b x).sramWorn = s.sramWorn := rfl
@[simp] theorem State.setCal_out (s : State) (d b : Nat) (x : CalBent) : (s.setCal d b x).out = s.out := rfl
@[simp] theorem State.setCal_sent (s : State) (d b : Nat) (x : CalBent) : (s.setCal d b x).sent = s.sent := rfl
@[simp] theorem State.setCal_handles (s : State) (d b : Nat) (x : CalBent) : (s.setCal d b x).handles = s.handles := rfl
@[simp] theorem State.setCal_mem (s : State) (d b : Nat) (x : CalBent) : (s.setCal d b x).mem = s.mem := rfl
@[simp] theorem State.setCal_log (s : State) (d b : Nat) (x : CalBent) : (s.setCal d b x).log = s.log := rfl
@[simp] theorem State.setCal_flash (s : State) (d b : Nat) (x : CalBent) : (s.setCal d b x).flash = s.flash := rfl
@[simp] theorem State.setCal_ident (s : State) (d b : Nat) (x : CalBent) : (s.setCal d b x).ident = s.ident := rfl
@[simp] theorem State.setCal_boot (s : State) (d b : Nat) (x : CalBent) : (s.setCal d b x).boot = s.boot := rfl
@[simp] theorem State.setCal_pwr (s : State) (d b : Nat) (x : CalBent) : (s.setCal d b x).pwr = s.pwr := rfl
@[simp] theorem State.setCal_wake (s : State) (d b : Nat) (x : CalBent) : (s.setCal d b x).wake = s.wake := rfl
@[simp] theorem State.setCal_sensors (s : State) (d b : Nat) (x : CalBent) : (s.setCal d b x).sensors = s.sensors := rfl
@[simp] theorem State.setCal_shut (s : State) (d b : Nat) (x : CalBent) : (s.setCal d b x).shut = s.shut := rfl
@[simp] theorem State.setCal_que (s : State) (d b : Nat) (x : CalBent) : (s.setCal d b x).que = s.que := rfl
@[simp] theorem State.setCal_syncs (s : State) (d b : Nat) (x : CalBent) : (s.setCal d b x).syncs = s.syncs := rfl
@[simp] theorem State.setCal_ctxs (s : State) (d b : Nat) (x : CalBent) : (s.setCal d b x).ctxs = s.ctxs := rfl
@[simp] theorem State.setCal_plans (s : State) (d b : Nat) (x : CalBent) : (s.setCal d b x).plans = s.plans := rfl
@[simp] theorem State.setCal_gens (s : State) (d b : Nat) (x : CalBent) : (s.setCal d b x).gens = s.gens := rfl
@[simp] theorem State.setCal_hashers (s : State) (d b : Nat) (x : CalBent) : (s.setCal d b x).hashers = s.hashers := rfl
@[simp] theorem State.setCal_chans (s : State) (d b : Nat) (x : CalBent) : (s.setCal d b x).chans = s.chans := rfl
@[simp] theorem State.setCal_ports (s : State) (d b : Nat) (x : CalBent) : (s.setCal d b x).ports = s.ports := rfl
@[simp] theorem State.setCal_optics (s : State) (d b : Nat) (x : CalBent) : (s.setCal d b x).optics = s.optics := rfl
@[simp] theorem State.setCal_req (s : State) (d b : Nat) (x : CalBent) : (s.setCal d b x).req = s.req := rfl
@[simp] theorem State.setCal_pools (s : State) (d b : Nat) (x : CalBent) : (s.setCal d b x).pools = s.pools := rfl
@[simp] theorem State.setCal_arrs (s : State) (d b : Nat) (x : CalBent) : (s.setCal d b x).arrs = s.arrs := rfl
@[simp] theorem State.setCal_bents (s : State) (d b : Nat) (x : CalBent) : (s.setCal d b x).bents = s.bents := rfl
@[simp] theorem State.setCal_atts (s : State) (d b : Nat) (x : CalBent) : (s.setCal d b x).atts = s.atts := rfl
@[simp] theorem State.setCal_grads (s : State) (d b : Nat) (x : CalBent) : (s.setCal d b x).grads = s.grads := rfl
@[simp] theorem State.setCal_folds (s : State) (d b : Nat) (x : CalBent) : (s.setCal d b x).folds = s.folds := rfl
@[simp] theorem State.setCal_owners (s : State) (d b : Nat) (x : CalBent) : (s.setCal d b x).owners = s.owners := rfl
@[simp] theorem State.setCal_fab (s : State) (d b : Nat) (x : CalBent) : (s.setCal d b x).fab = s.fab := rfl
@[simp] theorem State.setCal_snap (s : State) (d b : Nat) (x : CalBent) : (s.setCal d b x).snap = s.snap := rfl

@[simp] theorem State.setPool_pending (s : State) (d : Nat) (x : KvPool) : (s.setPool d x).pending = s.pending := rfl
@[simp] theorem State.setPool_variant (s : State) (d : Nat) (x : KvPool) : (s.setPool d x).variant = s.variant := rfl
@[simp] theorem State.setPool_time (s : State) (d : Nat) (x : KvPool) : (s.setPool d x).time = s.time := rfl
@[simp] theorem State.setPool_free (s : State) (d : Nat) (x : KvPool) : (s.setPool d x).free = s.free := rfl
@[simp] theorem State.setPool_regs (s : State) (d : Nat) (x : KvPool) : (s.setPool d x).regs = s.regs := rfl
@[simp] theorem State.setPool_sramFixed (s : State) (d : Nat) (x : KvPool) : (s.setPool d x).sramFixed = s.sramFixed := rfl
@[simp] theorem State.setPool_sramWorn (s : State) (d : Nat) (x : KvPool) : (s.setPool d x).sramWorn = s.sramWorn := rfl
@[simp] theorem State.setPool_out (s : State) (d : Nat) (x : KvPool) : (s.setPool d x).out = s.out := rfl
@[simp] theorem State.setPool_sent (s : State) (d : Nat) (x : KvPool) : (s.setPool d x).sent = s.sent := rfl
@[simp] theorem State.setPool_handles (s : State) (d : Nat) (x : KvPool) : (s.setPool d x).handles = s.handles := rfl
@[simp] theorem State.setPool_mem (s : State) (d : Nat) (x : KvPool) : (s.setPool d x).mem = s.mem := rfl
@[simp] theorem State.setPool_log (s : State) (d : Nat) (x : KvPool) : (s.setPool d x).log = s.log := rfl
@[simp] theorem State.setPool_flash (s : State) (d : Nat) (x : KvPool) : (s.setPool d x).flash = s.flash := rfl
@[simp] theorem State.setPool_ident (s : State) (d : Nat) (x : KvPool) : (s.setPool d x).ident = s.ident := rfl
@[simp] theorem State.setPool_boot (s : State) (d : Nat) (x : KvPool) : (s.setPool d x).boot = s.boot := rfl
@[simp] theorem State.setPool_pwr (s : State) (d : Nat) (x : KvPool) : (s.setPool d x).pwr = s.pwr := rfl
@[simp] theorem State.setPool_wake (s : State) (d : Nat) (x : KvPool) : (s.setPool d x).wake = s.wake := rfl
@[simp] theorem State.setPool_sensors (s : State) (d : Nat) (x : KvPool) : (s.setPool d x).sensors = s.sensors := rfl
@[simp] theorem State.setPool_shut (s : State) (d : Nat) (x : KvPool) : (s.setPool d x).shut = s.shut := rfl
@[simp] theorem State.setPool_que (s : State) (d : Nat) (x : KvPool) : (s.setPool d x).que = s.que := rfl
@[simp] theorem State.setPool_syncs (s : State) (d : Nat) (x : KvPool) : (s.setPool d x).syncs = s.syncs := rfl
@[simp] theorem State.setPool_ctxs (s : State) (d : Nat) (x : KvPool) : (s.setPool d x).ctxs = s.ctxs := rfl
@[simp] theorem State.setPool_plans (s : State) (d : Nat) (x : KvPool) : (s.setPool d x).plans = s.plans := rfl
@[simp] theorem State.setPool_gens (s : State) (d : Nat) (x : KvPool) : (s.setPool d x).gens = s.gens := rfl
@[simp] theorem State.setPool_hashers (s : State) (d : Nat) (x : KvPool) : (s.setPool d x).hashers = s.hashers := rfl
@[simp] theorem State.setPool_chans (s : State) (d : Nat) (x : KvPool) : (s.setPool d x).chans = s.chans := rfl
@[simp] theorem State.setPool_ports (s : State) (d : Nat) (x : KvPool) : (s.setPool d x).ports = s.ports := rfl
@[simp] theorem State.setPool_optics (s : State) (d : Nat) (x : KvPool) : (s.setPool d x).optics = s.optics := rfl
@[simp] theorem State.setPool_req (s : State) (d : Nat) (x : KvPool) : (s.setPool d x).req = s.req := rfl
@[simp] theorem State.setPool_arrs (s : State) (d : Nat) (x : KvPool) : (s.setPool d x).arrs = s.arrs := rfl
@[simp] theorem State.setPool_bents (s : State) (d : Nat) (x : KvPool) : (s.setPool d x).bents = s.bents := rfl
@[simp] theorem State.setPool_atts (s : State) (d : Nat) (x : KvPool) : (s.setPool d x).atts = s.atts := rfl
@[simp] theorem State.setPool_grads (s : State) (d : Nat) (x : KvPool) : (s.setPool d x).grads = s.grads := rfl
@[simp] theorem State.setPool_folds (s : State) (d : Nat) (x : KvPool) : (s.setPool d x).folds = s.folds := rfl
@[simp] theorem State.setPool_cals (s : State) (d : Nat) (x : KvPool) : (s.setPool d x).cals = s.cals := rfl
@[simp] theorem State.setPool_owners (s : State) (d : Nat) (x : KvPool) : (s.setPool d x).owners = s.owners := rfl
@[simp] theorem State.setPool_fab (s : State) (d : Nat) (x : KvPool) : (s.setPool d x).fab = s.fab := rfl
@[simp] theorem State.setPool_snap (s : State) (d : Nat) (x : KvPool) : (s.setPool d x).snap = s.snap := rfl

@[simp] theorem State.setWake_pending (s : State) (d : Nat) (x : Wake) : (s.setWake d x).pending = s.pending := rfl
@[simp] theorem State.setWake_variant (s : State) (d : Nat) (x : Wake) : (s.setWake d x).variant = s.variant := rfl
@[simp] theorem State.setWake_time (s : State) (d : Nat) (x : Wake) : (s.setWake d x).time = s.time := rfl
@[simp] theorem State.setWake_free (s : State) (d : Nat) (x : Wake) : (s.setWake d x).free = s.free := rfl
@[simp] theorem State.setWake_regs (s : State) (d : Nat) (x : Wake) : (s.setWake d x).regs = s.regs := rfl
@[simp] theorem State.setWake_sramFixed (s : State) (d : Nat) (x : Wake) : (s.setWake d x).sramFixed = s.sramFixed := rfl
@[simp] theorem State.setWake_sramWorn (s : State) (d : Nat) (x : Wake) : (s.setWake d x).sramWorn = s.sramWorn := rfl
@[simp] theorem State.setWake_out (s : State) (d : Nat) (x : Wake) : (s.setWake d x).out = s.out := rfl
@[simp] theorem State.setWake_sent (s : State) (d : Nat) (x : Wake) : (s.setWake d x).sent = s.sent := rfl
@[simp] theorem State.setWake_handles (s : State) (d : Nat) (x : Wake) : (s.setWake d x).handles = s.handles := rfl
@[simp] theorem State.setWake_mem (s : State) (d : Nat) (x : Wake) : (s.setWake d x).mem = s.mem := rfl
@[simp] theorem State.setWake_log (s : State) (d : Nat) (x : Wake) : (s.setWake d x).log = s.log := rfl
@[simp] theorem State.setWake_flash (s : State) (d : Nat) (x : Wake) : (s.setWake d x).flash = s.flash := rfl
@[simp] theorem State.setWake_ident (s : State) (d : Nat) (x : Wake) : (s.setWake d x).ident = s.ident := rfl
@[simp] theorem State.setWake_boot (s : State) (d : Nat) (x : Wake) : (s.setWake d x).boot = s.boot := rfl
@[simp] theorem State.setWake_pwr (s : State) (d : Nat) (x : Wake) : (s.setWake d x).pwr = s.pwr := rfl
@[simp] theorem State.setWake_sensors (s : State) (d : Nat) (x : Wake) : (s.setWake d x).sensors = s.sensors := rfl
@[simp] theorem State.setWake_shut (s : State) (d : Nat) (x : Wake) : (s.setWake d x).shut = s.shut := rfl
@[simp] theorem State.setWake_que (s : State) (d : Nat) (x : Wake) : (s.setWake d x).que = s.que := rfl
@[simp] theorem State.setWake_syncs (s : State) (d : Nat) (x : Wake) : (s.setWake d x).syncs = s.syncs := rfl
@[simp] theorem State.setWake_ctxs (s : State) (d : Nat) (x : Wake) : (s.setWake d x).ctxs = s.ctxs := rfl
@[simp] theorem State.setWake_plans (s : State) (d : Nat) (x : Wake) : (s.setWake d x).plans = s.plans := rfl
@[simp] theorem State.setWake_gens (s : State) (d : Nat) (x : Wake) : (s.setWake d x).gens = s.gens := rfl
@[simp] theorem State.setWake_hashers (s : State) (d : Nat) (x : Wake) : (s.setWake d x).hashers = s.hashers := rfl
@[simp] theorem State.setWake_chans (s : State) (d : Nat) (x : Wake) : (s.setWake d x).chans = s.chans := rfl
@[simp] theorem State.setWake_ports (s : State) (d : Nat) (x : Wake) : (s.setWake d x).ports = s.ports := rfl
@[simp] theorem State.setWake_optics (s : State) (d : Nat) (x : Wake) : (s.setWake d x).optics = s.optics := rfl
@[simp] theorem State.setWake_req (s : State) (d : Nat) (x : Wake) : (s.setWake d x).req = s.req := rfl
@[simp] theorem State.setWake_pools (s : State) (d : Nat) (x : Wake) : (s.setWake d x).pools = s.pools := rfl
@[simp] theorem State.setWake_arrs (s : State) (d : Nat) (x : Wake) : (s.setWake d x).arrs = s.arrs := rfl
@[simp] theorem State.setWake_bents (s : State) (d : Nat) (x : Wake) : (s.setWake d x).bents = s.bents := rfl
@[simp] theorem State.setWake_atts (s : State) (d : Nat) (x : Wake) : (s.setWake d x).atts = s.atts := rfl
@[simp] theorem State.setWake_grads (s : State) (d : Nat) (x : Wake) : (s.setWake d x).grads = s.grads := rfl
@[simp] theorem State.setWake_folds (s : State) (d : Nat) (x : Wake) : (s.setWake d x).folds = s.folds := rfl
@[simp] theorem State.setWake_cals (s : State) (d : Nat) (x : Wake) : (s.setWake d x).cals = s.cals := rfl
@[simp] theorem State.setWake_owners (s : State) (d : Nat) (x : Wake) : (s.setWake d x).owners = s.owners := rfl
@[simp] theorem State.setWake_fab (s : State) (d : Nat) (x : Wake) : (s.setWake d x).fab = s.fab := rfl
@[simp] theorem State.setWake_snap (s : State) (d : Nat) (x : Wake) : (s.setWake d x).snap = s.snap := rfl

@[simp] theorem State.takeSlot_pending (s : State) (h : HType) (n : Nat) : (s.takeSlot h n).pending = s.pending := rfl
@[simp] theorem State.takeSlot_variant (s : State) (h : HType) (n : Nat) : (s.takeSlot h n).variant = s.variant := rfl
@[simp] theorem State.takeSlot_time (s : State) (h : HType) (n : Nat) : (s.takeSlot h n).time = s.time := rfl
@[simp] theorem State.takeSlot_free (s : State) (h : HType) (n : Nat) : (s.takeSlot h n).free = s.free := rfl
@[simp] theorem State.takeSlot_regs (s : State) (h : HType) (n : Nat) : (s.takeSlot h n).regs = s.regs := rfl
@[simp] theorem State.takeSlot_sramFixed (s : State) (h : HType) (n : Nat) : (s.takeSlot h n).sramFixed = s.sramFixed := rfl
@[simp] theorem State.takeSlot_sramWorn (s : State) (h : HType) (n : Nat) : (s.takeSlot h n).sramWorn = s.sramWorn := rfl
@[simp] theorem State.takeSlot_out (s : State) (h : HType) (n : Nat) : (s.takeSlot h n).out = s.out := rfl
@[simp] theorem State.takeSlot_sent (s : State) (h : HType) (n : Nat) : (s.takeSlot h n).sent = s.sent := rfl
@[simp] theorem State.takeSlot_mem (s : State) (h : HType) (n : Nat) : (s.takeSlot h n).mem = s.mem := rfl
@[simp] theorem State.takeSlot_log (s : State) (h : HType) (n : Nat) : (s.takeSlot h n).log = s.log := rfl
@[simp] theorem State.takeSlot_flash (s : State) (h : HType) (n : Nat) : (s.takeSlot h n).flash = s.flash := rfl
@[simp] theorem State.takeSlot_ident (s : State) (h : HType) (n : Nat) : (s.takeSlot h n).ident = s.ident := rfl
@[simp] theorem State.takeSlot_boot (s : State) (h : HType) (n : Nat) : (s.takeSlot h n).boot = s.boot := rfl
@[simp] theorem State.takeSlot_pwr (s : State) (h : HType) (n : Nat) : (s.takeSlot h n).pwr = s.pwr := rfl
@[simp] theorem State.takeSlot_wake (s : State) (h : HType) (n : Nat) : (s.takeSlot h n).wake = s.wake := rfl
@[simp] theorem State.takeSlot_sensors (s : State) (h : HType) (n : Nat) : (s.takeSlot h n).sensors = s.sensors := rfl
@[simp] theorem State.takeSlot_shut (s : State) (h : HType) (n : Nat) : (s.takeSlot h n).shut = s.shut := rfl
@[simp] theorem State.takeSlot_que (s : State) (h : HType) (n : Nat) : (s.takeSlot h n).que = s.que := rfl
@[simp] theorem State.takeSlot_syncs (s : State) (h : HType) (n : Nat) : (s.takeSlot h n).syncs = s.syncs := rfl
@[simp] theorem State.takeSlot_ctxs (s : State) (h : HType) (n : Nat) : (s.takeSlot h n).ctxs = s.ctxs := rfl
@[simp] theorem State.takeSlot_plans (s : State) (h : HType) (n : Nat) : (s.takeSlot h n).plans = s.plans := rfl
@[simp] theorem State.takeSlot_gens (s : State) (h : HType) (n : Nat) : (s.takeSlot h n).gens = s.gens := rfl
@[simp] theorem State.takeSlot_hashers (s : State) (h : HType) (n : Nat) : (s.takeSlot h n).hashers = s.hashers := rfl
@[simp] theorem State.takeSlot_chans (s : State) (h : HType) (n : Nat) : (s.takeSlot h n).chans = s.chans := rfl
@[simp] theorem State.takeSlot_ports (s : State) (h : HType) (n : Nat) : (s.takeSlot h n).ports = s.ports := rfl
@[simp] theorem State.takeSlot_optics (s : State) (h : HType) (n : Nat) : (s.takeSlot h n).optics = s.optics := rfl
@[simp] theorem State.takeSlot_req (s : State) (h : HType) (n : Nat) : (s.takeSlot h n).req = s.req := rfl
@[simp] theorem State.takeSlot_pools (s : State) (h : HType) (n : Nat) : (s.takeSlot h n).pools = s.pools := rfl
@[simp] theorem State.takeSlot_arrs (s : State) (h : HType) (n : Nat) : (s.takeSlot h n).arrs = s.arrs := rfl
@[simp] theorem State.takeSlot_bents (s : State) (h : HType) (n : Nat) : (s.takeSlot h n).bents = s.bents := rfl
@[simp] theorem State.takeSlot_atts (s : State) (h : HType) (n : Nat) : (s.takeSlot h n).atts = s.atts := rfl
@[simp] theorem State.takeSlot_grads (s : State) (h : HType) (n : Nat) : (s.takeSlot h n).grads = s.grads := rfl
@[simp] theorem State.takeSlot_folds (s : State) (h : HType) (n : Nat) : (s.takeSlot h n).folds = s.folds := rfl
@[simp] theorem State.takeSlot_cals (s : State) (h : HType) (n : Nat) : (s.takeSlot h n).cals = s.cals := rfl
@[simp] theorem State.takeSlot_owners (s : State) (h : HType) (n : Nat) : (s.takeSlot h n).owners = s.owners := rfl
@[simp] theorem State.takeSlot_fab (s : State) (h : HType) (n : Nat) : (s.takeSlot h n).fab = s.fab := rfl
@[simp] theorem State.takeSlot_snap (s : State) (h : HType) (n : Nat) : (s.takeSlot h n).snap = s.snap := rfl

@[simp] theorem State.dropSlot_pending (s : State) (h : HType) (n : Nat) : (s.dropSlot h n).pending = s.pending := rfl
@[simp] theorem State.dropSlot_variant (s : State) (h : HType) (n : Nat) : (s.dropSlot h n).variant = s.variant := rfl
@[simp] theorem State.dropSlot_time (s : State) (h : HType) (n : Nat) : (s.dropSlot h n).time = s.time := rfl
@[simp] theorem State.dropSlot_free (s : State) (h : HType) (n : Nat) : (s.dropSlot h n).free = s.free := rfl
@[simp] theorem State.dropSlot_regs (s : State) (h : HType) (n : Nat) : (s.dropSlot h n).regs = s.regs := rfl
@[simp] theorem State.dropSlot_sramFixed (s : State) (h : HType) (n : Nat) : (s.dropSlot h n).sramFixed = s.sramFixed := rfl
@[simp] theorem State.dropSlot_sramWorn (s : State) (h : HType) (n : Nat) : (s.dropSlot h n).sramWorn = s.sramWorn := rfl
@[simp] theorem State.dropSlot_out (s : State) (h : HType) (n : Nat) : (s.dropSlot h n).out = s.out := rfl
@[simp] theorem State.dropSlot_sent (s : State) (h : HType) (n : Nat) : (s.dropSlot h n).sent = s.sent := rfl
@[simp] theorem State.dropSlot_mem (s : State) (h : HType) (n : Nat) : (s.dropSlot h n).mem = s.mem := rfl
@[simp] theorem State.dropSlot_log (s : State) (h : HType) (n : Nat) : (s.dropSlot h n).log = s.log := rfl
@[simp] theorem State.dropSlot_flash (s : State) (h : HType) (n : Nat) : (s.dropSlot h n).flash = s.flash := rfl
@[simp] theorem State.dropSlot_ident (s : State) (h : HType) (n : Nat) : (s.dropSlot h n).ident = s.ident := rfl
@[simp] theorem State.dropSlot_boot (s : State) (h : HType) (n : Nat) : (s.dropSlot h n).boot = s.boot := rfl
@[simp] theorem State.dropSlot_pwr (s : State) (h : HType) (n : Nat) : (s.dropSlot h n).pwr = s.pwr := rfl
@[simp] theorem State.dropSlot_wake (s : State) (h : HType) (n : Nat) : (s.dropSlot h n).wake = s.wake := rfl
@[simp] theorem State.dropSlot_sensors (s : State) (h : HType) (n : Nat) : (s.dropSlot h n).sensors = s.sensors := rfl
@[simp] theorem State.dropSlot_shut (s : State) (h : HType) (n : Nat) : (s.dropSlot h n).shut = s.shut := rfl
@[simp] theorem State.dropSlot_que (s : State) (h : HType) (n : Nat) : (s.dropSlot h n).que = s.que := rfl
@[simp] theorem State.dropSlot_syncs (s : State) (h : HType) (n : Nat) : (s.dropSlot h n).syncs = s.syncs := rfl
@[simp] theorem State.dropSlot_ctxs (s : State) (h : HType) (n : Nat) : (s.dropSlot h n).ctxs = s.ctxs := rfl
@[simp] theorem State.dropSlot_plans (s : State) (h : HType) (n : Nat) : (s.dropSlot h n).plans = s.plans := rfl
@[simp] theorem State.dropSlot_gens (s : State) (h : HType) (n : Nat) : (s.dropSlot h n).gens = s.gens := rfl
@[simp] theorem State.dropSlot_hashers (s : State) (h : HType) (n : Nat) : (s.dropSlot h n).hashers = s.hashers := rfl
@[simp] theorem State.dropSlot_chans (s : State) (h : HType) (n : Nat) : (s.dropSlot h n).chans = s.chans := rfl
@[simp] theorem State.dropSlot_ports (s : State) (h : HType) (n : Nat) : (s.dropSlot h n).ports = s.ports := rfl
@[simp] theorem State.dropSlot_optics (s : State) (h : HType) (n : Nat) : (s.dropSlot h n).optics = s.optics := rfl
@[simp] theorem State.dropSlot_req (s : State) (h : HType) (n : Nat) : (s.dropSlot h n).req = s.req := rfl
@[simp] theorem State.dropSlot_pools (s : State) (h : HType) (n : Nat) : (s.dropSlot h n).pools = s.pools := rfl
@[simp] theorem State.dropSlot_arrs (s : State) (h : HType) (n : Nat) : (s.dropSlot h n).arrs = s.arrs := rfl
@[simp] theorem State.dropSlot_bents (s : State) (h : HType) (n : Nat) : (s.dropSlot h n).bents = s.bents := rfl
@[simp] theorem State.dropSlot_atts (s : State) (h : HType) (n : Nat) : (s.dropSlot h n).atts = s.atts := rfl
@[simp] theorem State.dropSlot_grads (s : State) (h : HType) (n : Nat) : (s.dropSlot h n).grads = s.grads := rfl
@[simp] theorem State.dropSlot_folds (s : State) (h : HType) (n : Nat) : (s.dropSlot h n).folds = s.folds := rfl
@[simp] theorem State.dropSlot_cals (s : State) (h : HType) (n : Nat) : (s.dropSlot h n).cals = s.cals := rfl
@[simp] theorem State.dropSlot_owners (s : State) (h : HType) (n : Nat) : (s.dropSlot h n).owners = s.owners := rfl
@[simp] theorem State.dropSlot_fab (s : State) (h : HType) (n : Nat) : (s.dropSlot h n).fab = s.fab := rfl
@[simp] theorem State.dropSlot_snap (s : State) (h : HType) (n : Nat) : (s.dropSlot h n).snap = s.snap := rfl

@[simp] theorem State.setQueue_pending (s : State) (q : Nat) (x : Option Queue) : (s.setQueue q x).pending = s.pending := rfl
@[simp] theorem State.setQueue_variant (s : State) (q : Nat) (x : Option Queue) : (s.setQueue q x).variant = s.variant := rfl
@[simp] theorem State.setQueue_time (s : State) (q : Nat) (x : Option Queue) : (s.setQueue q x).time = s.time := rfl
@[simp] theorem State.setQueue_free (s : State) (q : Nat) (x : Option Queue) : (s.setQueue q x).free = s.free := rfl
@[simp] theorem State.setQueue_regs (s : State) (q : Nat) (x : Option Queue) : (s.setQueue q x).regs = s.regs := rfl
@[simp] theorem State.setQueue_sramFixed (s : State) (q : Nat) (x : Option Queue) : (s.setQueue q x).sramFixed = s.sramFixed := rfl
@[simp] theorem State.setQueue_sramWorn (s : State) (q : Nat) (x : Option Queue) : (s.setQueue q x).sramWorn = s.sramWorn := rfl
@[simp] theorem State.setQueue_out (s : State) (q : Nat) (x : Option Queue) : (s.setQueue q x).out = s.out := rfl
@[simp] theorem State.setQueue_sent (s : State) (q : Nat) (x : Option Queue) : (s.setQueue q x).sent = s.sent := rfl
@[simp] theorem State.setQueue_handles (s : State) (q : Nat) (x : Option Queue) : (s.setQueue q x).handles = s.handles := rfl
@[simp] theorem State.setQueue_mem (s : State) (q : Nat) (x : Option Queue) : (s.setQueue q x).mem = s.mem := rfl
@[simp] theorem State.setQueue_log (s : State) (q : Nat) (x : Option Queue) : (s.setQueue q x).log = s.log := rfl
@[simp] theorem State.setQueue_flash (s : State) (q : Nat) (x : Option Queue) : (s.setQueue q x).flash = s.flash := rfl
@[simp] theorem State.setQueue_ident (s : State) (q : Nat) (x : Option Queue) : (s.setQueue q x).ident = s.ident := rfl
@[simp] theorem State.setQueue_boot (s : State) (q : Nat) (x : Option Queue) : (s.setQueue q x).boot = s.boot := rfl
@[simp] theorem State.setQueue_pwr (s : State) (q : Nat) (x : Option Queue) : (s.setQueue q x).pwr = s.pwr := rfl
@[simp] theorem State.setQueue_wake (s : State) (q : Nat) (x : Option Queue) : (s.setQueue q x).wake = s.wake := rfl
@[simp] theorem State.setQueue_sensors (s : State) (q : Nat) (x : Option Queue) : (s.setQueue q x).sensors = s.sensors := rfl
@[simp] theorem State.setQueue_shut (s : State) (q : Nat) (x : Option Queue) : (s.setQueue q x).shut = s.shut := rfl
@[simp] theorem State.setQueue_syncs (s : State) (q : Nat) (x : Option Queue) : (s.setQueue q x).syncs = s.syncs := rfl
@[simp] theorem State.setQueue_ctxs (s : State) (q : Nat) (x : Option Queue) : (s.setQueue q x).ctxs = s.ctxs := rfl
@[simp] theorem State.setQueue_plans (s : State) (q : Nat) (x : Option Queue) : (s.setQueue q x).plans = s.plans := rfl
@[simp] theorem State.setQueue_gens (s : State) (q : Nat) (x : Option Queue) : (s.setQueue q x).gens = s.gens := rfl
@[simp] theorem State.setQueue_hashers (s : State) (q : Nat) (x : Option Queue) : (s.setQueue q x).hashers = s.hashers := rfl
@[simp] theorem State.setQueue_chans (s : State) (q : Nat) (x : Option Queue) : (s.setQueue q x).chans = s.chans := rfl
@[simp] theorem State.setQueue_ports (s : State) (q : Nat) (x : Option Queue) : (s.setQueue q x).ports = s.ports := rfl
@[simp] theorem State.setQueue_optics (s : State) (q : Nat) (x : Option Queue) : (s.setQueue q x).optics = s.optics := rfl
@[simp] theorem State.setQueue_req (s : State) (q : Nat) (x : Option Queue) : (s.setQueue q x).req = s.req := rfl
@[simp] theorem State.setQueue_pools (s : State) (q : Nat) (x : Option Queue) : (s.setQueue q x).pools = s.pools := rfl
@[simp] theorem State.setQueue_arrs (s : State) (q : Nat) (x : Option Queue) : (s.setQueue q x).arrs = s.arrs := rfl
@[simp] theorem State.setQueue_bents (s : State) (q : Nat) (x : Option Queue) : (s.setQueue q x).bents = s.bents := rfl
@[simp] theorem State.setQueue_atts (s : State) (q : Nat) (x : Option Queue) : (s.setQueue q x).atts = s.atts := rfl
@[simp] theorem State.setQueue_grads (s : State) (q : Nat) (x : Option Queue) : (s.setQueue q x).grads = s.grads := rfl
@[simp] theorem State.setQueue_folds (s : State) (q : Nat) (x : Option Queue) : (s.setQueue q x).folds = s.folds := rfl
@[simp] theorem State.setQueue_cals (s : State) (q : Nat) (x : Option Queue) : (s.setQueue q x).cals = s.cals := rfl
@[simp] theorem State.setQueue_owners (s : State) (q : Nat) (x : Option Queue) : (s.setQueue q x).owners = s.owners := rfl
@[simp] theorem State.setQueue_fab (s : State) (q : Nat) (x : Option Queue) : (s.setQueue q x).fab = s.fab := rfl
@[simp] theorem State.setQueue_snap (s : State) (q : Nat) (x : Option Queue) : (s.setQueue q x).snap = s.snap := rfl

@[simp] theorem State.onFlight_pending (s : State) (q i : Nat) (f : Flight → Flight) : (s.onFlight q i f).pending = s.pending := rfl
@[simp] theorem State.onFlight_variant (s : State) (q i : Nat) (f : Flight → Flight) : (s.onFlight q i f).variant = s.variant := rfl
@[simp] theorem State.onFlight_time (s : State) (q i : Nat) (f : Flight → Flight) : (s.onFlight q i f).time = s.time := rfl
@[simp] theorem State.onFlight_free (s : State) (q i : Nat) (f : Flight → Flight) : (s.onFlight q i f).free = s.free := rfl
@[simp] theorem State.onFlight_regs (s : State) (q i : Nat) (f : Flight → Flight) : (s.onFlight q i f).regs = s.regs := rfl
@[simp] theorem State.onFlight_sramFixed (s : State) (q i : Nat) (f : Flight → Flight) : (s.onFlight q i f).sramFixed = s.sramFixed := rfl
@[simp] theorem State.onFlight_sramWorn (s : State) (q i : Nat) (f : Flight → Flight) : (s.onFlight q i f).sramWorn = s.sramWorn := rfl
@[simp] theorem State.onFlight_out (s : State) (q i : Nat) (f : Flight → Flight) : (s.onFlight q i f).out = s.out := rfl
@[simp] theorem State.onFlight_sent (s : State) (q i : Nat) (f : Flight → Flight) : (s.onFlight q i f).sent = s.sent := rfl
@[simp] theorem State.onFlight_handles (s : State) (q i : Nat) (f : Flight → Flight) : (s.onFlight q i f).handles = s.handles := rfl
@[simp] theorem State.onFlight_mem (s : State) (q i : Nat) (f : Flight → Flight) : (s.onFlight q i f).mem = s.mem := rfl
@[simp] theorem State.onFlight_log (s : State) (q i : Nat) (f : Flight → Flight) : (s.onFlight q i f).log = s.log := rfl
@[simp] theorem State.onFlight_flash (s : State) (q i : Nat) (f : Flight → Flight) : (s.onFlight q i f).flash = s.flash := rfl
@[simp] theorem State.onFlight_ident (s : State) (q i : Nat) (f : Flight → Flight) : (s.onFlight q i f).ident = s.ident := rfl
@[simp] theorem State.onFlight_boot (s : State) (q i : Nat) (f : Flight → Flight) : (s.onFlight q i f).boot = s.boot := rfl
@[simp] theorem State.onFlight_pwr (s : State) (q i : Nat) (f : Flight → Flight) : (s.onFlight q i f).pwr = s.pwr := rfl
@[simp] theorem State.onFlight_wake (s : State) (q i : Nat) (f : Flight → Flight) : (s.onFlight q i f).wake = s.wake := rfl
@[simp] theorem State.onFlight_sensors (s : State) (q i : Nat) (f : Flight → Flight) : (s.onFlight q i f).sensors = s.sensors := rfl
@[simp] theorem State.onFlight_shut (s : State) (q i : Nat) (f : Flight → Flight) : (s.onFlight q i f).shut = s.shut := rfl
@[simp] theorem State.onFlight_syncs (s : State) (q i : Nat) (f : Flight → Flight) : (s.onFlight q i f).syncs = s.syncs := rfl
@[simp] theorem State.onFlight_ctxs (s : State) (q i : Nat) (f : Flight → Flight) : (s.onFlight q i f).ctxs = s.ctxs := rfl
@[simp] theorem State.onFlight_plans (s : State) (q i : Nat) (f : Flight → Flight) : (s.onFlight q i f).plans = s.plans := rfl
@[simp] theorem State.onFlight_gens (s : State) (q i : Nat) (f : Flight → Flight) : (s.onFlight q i f).gens = s.gens := rfl
@[simp] theorem State.onFlight_hashers (s : State) (q i : Nat) (f : Flight → Flight) : (s.onFlight q i f).hashers = s.hashers := rfl
@[simp] theorem State.onFlight_chans (s : State) (q i : Nat) (f : Flight → Flight) : (s.onFlight q i f).chans = s.chans := rfl
@[simp] theorem State.onFlight_ports (s : State) (q i : Nat) (f : Flight → Flight) : (s.onFlight q i f).ports = s.ports := rfl
@[simp] theorem State.onFlight_optics (s : State) (q i : Nat) (f : Flight → Flight) : (s.onFlight q i f).optics = s.optics := rfl
@[simp] theorem State.onFlight_req (s : State) (q i : Nat) (f : Flight → Flight) : (s.onFlight q i f).req = s.req := rfl
@[simp] theorem State.onFlight_pools (s : State) (q i : Nat) (f : Flight → Flight) : (s.onFlight q i f).pools = s.pools := rfl
@[simp] theorem State.onFlight_arrs (s : State) (q i : Nat) (f : Flight → Flight) : (s.onFlight q i f).arrs = s.arrs := rfl
@[simp] theorem State.onFlight_bents (s : State) (q i : Nat) (f : Flight → Flight) : (s.onFlight q i f).bents = s.bents := rfl
@[simp] theorem State.onFlight_atts (s : State) (q i : Nat) (f : Flight → Flight) : (s.onFlight q i f).atts = s.atts := rfl
@[simp] theorem State.onFlight_grads (s : State) (q i : Nat) (f : Flight → Flight) : (s.onFlight q i f).grads = s.grads := rfl
@[simp] theorem State.onFlight_folds (s : State) (q i : Nat) (f : Flight → Flight) : (s.onFlight q i f).folds = s.folds := rfl
@[simp] theorem State.onFlight_cals (s : State) (q i : Nat) (f : Flight → Flight) : (s.onFlight q i f).cals = s.cals := rfl
@[simp] theorem State.onFlight_owners (s : State) (q i : Nat) (f : Flight → Flight) : (s.onFlight q i f).owners = s.owners := rfl
@[simp] theorem State.onFlight_fab (s : State) (q i : Nat) (f : Flight → Flight) : (s.onFlight q i f).fab = s.fab := rfl
@[simp] theorem State.onFlight_snap (s : State) (q i : Nat) (f : Flight → Flight) : (s.onFlight q i f).snap = s.snap := rfl

@[simp] theorem State.finish_pending (s : State) (q i a b c : Nat) : (s.finish q i a b c).pending = s.pending := rfl
@[simp] theorem State.finish_variant (s : State) (q i a b c : Nat) : (s.finish q i a b c).variant = s.variant := rfl
@[simp] theorem State.finish_time (s : State) (q i a b c : Nat) : (s.finish q i a b c).time = s.time := rfl
@[simp] theorem State.finish_free (s : State) (q i a b c : Nat) : (s.finish q i a b c).free = s.free := rfl
@[simp] theorem State.finish_regs (s : State) (q i a b c : Nat) : (s.finish q i a b c).regs = s.regs := rfl
@[simp] theorem State.finish_sramFixed (s : State) (q i a b c : Nat) : (s.finish q i a b c).sramFixed = s.sramFixed := rfl
@[simp] theorem State.finish_sramWorn (s : State) (q i a b c : Nat) : (s.finish q i a b c).sramWorn = s.sramWorn := rfl
@[simp] theorem State.finish_out (s : State) (q i a b c : Nat) : (s.finish q i a b c).out = s.out := rfl
@[simp] theorem State.finish_sent (s : State) (q i a b c : Nat) : (s.finish q i a b c).sent = s.sent := rfl
@[simp] theorem State.finish_handles (s : State) (q i a b c : Nat) : (s.finish q i a b c).handles = s.handles := rfl
@[simp] theorem State.finish_mem (s : State) (q i a b c : Nat) : (s.finish q i a b c).mem = s.mem := rfl
@[simp] theorem State.finish_log (s : State) (q i a b c : Nat) : (s.finish q i a b c).log = s.log := rfl
@[simp] theorem State.finish_flash (s : State) (q i a b c : Nat) : (s.finish q i a b c).flash = s.flash := rfl
@[simp] theorem State.finish_ident (s : State) (q i a b c : Nat) : (s.finish q i a b c).ident = s.ident := rfl
@[simp] theorem State.finish_boot (s : State) (q i a b c : Nat) : (s.finish q i a b c).boot = s.boot := rfl
@[simp] theorem State.finish_pwr (s : State) (q i a b c : Nat) : (s.finish q i a b c).pwr = s.pwr := rfl
@[simp] theorem State.finish_wake (s : State) (q i a b c : Nat) : (s.finish q i a b c).wake = s.wake := rfl
@[simp] theorem State.finish_sensors (s : State) (q i a b c : Nat) : (s.finish q i a b c).sensors = s.sensors := rfl
@[simp] theorem State.finish_shut (s : State) (q i a b c : Nat) : (s.finish q i a b c).shut = s.shut := rfl
@[simp] theorem State.finish_syncs (s : State) (q i a b c : Nat) : (s.finish q i a b c).syncs = s.syncs := rfl
@[simp] theorem State.finish_ctxs (s : State) (q i a b c : Nat) : (s.finish q i a b c).ctxs = s.ctxs := rfl
@[simp] theorem State.finish_plans (s : State) (q i a b c : Nat) : (s.finish q i a b c).plans = s.plans := rfl
@[simp] theorem State.finish_gens (s : State) (q i a b c : Nat) : (s.finish q i a b c).gens = s.gens := rfl
@[simp] theorem State.finish_hashers (s : State) (q i a b c : Nat) : (s.finish q i a b c).hashers = s.hashers := rfl
@[simp] theorem State.finish_chans (s : State) (q i a b c : Nat) : (s.finish q i a b c).chans = s.chans := rfl
@[simp] theorem State.finish_ports (s : State) (q i a b c : Nat) : (s.finish q i a b c).ports = s.ports := rfl
@[simp] theorem State.finish_optics (s : State) (q i a b c : Nat) : (s.finish q i a b c).optics = s.optics := rfl
@[simp] theorem State.finish_req (s : State) (q i a b c : Nat) : (s.finish q i a b c).req = s.req := rfl
@[simp] theorem State.finish_pools (s : State) (q i a b c : Nat) : (s.finish q i a b c).pools = s.pools := rfl
@[simp] theorem State.finish_arrs (s : State) (q i a b c : Nat) : (s.finish q i a b c).arrs = s.arrs := rfl
@[simp] theorem State.finish_bents (s : State) (q i a b c : Nat) : (s.finish q i a b c).bents = s.bents := rfl
@[simp] theorem State.finish_atts (s : State) (q i a b c : Nat) : (s.finish q i a b c).atts = s.atts := rfl
@[simp] theorem State.finish_grads (s : State) (q i a b c : Nat) : (s.finish q i a b c).grads = s.grads := rfl
@[simp] theorem State.finish_folds (s : State) (q i a b c : Nat) : (s.finish q i a b c).folds = s.folds := rfl
@[simp] theorem State.finish_cals (s : State) (q i a b c : Nat) : (s.finish q i a b c).cals = s.cals := rfl
@[simp] theorem State.finish_owners (s : State) (q i a b c : Nat) : (s.finish q i a b c).owners = s.owners := rfl
@[simp] theorem State.finish_fab (s : State) (q i a b c : Nat) : (s.finish q i a b c).fab = s.fab := rfl
@[simp] theorem State.finish_snap (s : State) (q i a b c : Nat) : (s.finish q i a b c).snap = s.snap := rfl

@[simp] theorem State.waitFlight_pending (s : State) (q i : Nat) : (s.waitFlight q i).pending = s.pending := rfl
@[simp] theorem State.waitFlight_variant (s : State) (q i : Nat) : (s.waitFlight q i).variant = s.variant := rfl
@[simp] theorem State.waitFlight_time (s : State) (q i : Nat) : (s.waitFlight q i).time = s.time := rfl
@[simp] theorem State.waitFlight_free (s : State) (q i : Nat) : (s.waitFlight q i).free = s.free := rfl
@[simp] theorem State.waitFlight_regs (s : State) (q i : Nat) : (s.waitFlight q i).regs = s.regs := rfl
@[simp] theorem State.waitFlight_sramFixed (s : State) (q i : Nat) : (s.waitFlight q i).sramFixed = s.sramFixed := rfl
@[simp] theorem State.waitFlight_sramWorn (s : State) (q i : Nat) : (s.waitFlight q i).sramWorn = s.sramWorn := rfl
@[simp] theorem State.waitFlight_out (s : State) (q i : Nat) : (s.waitFlight q i).out = s.out := rfl
@[simp] theorem State.waitFlight_sent (s : State) (q i : Nat) : (s.waitFlight q i).sent = s.sent := rfl
@[simp] theorem State.waitFlight_handles (s : State) (q i : Nat) : (s.waitFlight q i).handles = s.handles := rfl
@[simp] theorem State.waitFlight_mem (s : State) (q i : Nat) : (s.waitFlight q i).mem = s.mem := rfl
@[simp] theorem State.waitFlight_log (s : State) (q i : Nat) : (s.waitFlight q i).log = s.log := rfl
@[simp] theorem State.waitFlight_flash (s : State) (q i : Nat) : (s.waitFlight q i).flash = s.flash := rfl
@[simp] theorem State.waitFlight_ident (s : State) (q i : Nat) : (s.waitFlight q i).ident = s.ident := rfl
@[simp] theorem State.waitFlight_boot (s : State) (q i : Nat) : (s.waitFlight q i).boot = s.boot := rfl
@[simp] theorem State.waitFlight_pwr (s : State) (q i : Nat) : (s.waitFlight q i).pwr = s.pwr := rfl
@[simp] theorem State.waitFlight_wake (s : State) (q i : Nat) : (s.waitFlight q i).wake = s.wake := rfl
@[simp] theorem State.waitFlight_sensors (s : State) (q i : Nat) : (s.waitFlight q i).sensors = s.sensors := rfl
@[simp] theorem State.waitFlight_shut (s : State) (q i : Nat) : (s.waitFlight q i).shut = s.shut := rfl
@[simp] theorem State.waitFlight_syncs (s : State) (q i : Nat) : (s.waitFlight q i).syncs = s.syncs := rfl
@[simp] theorem State.waitFlight_ctxs (s : State) (q i : Nat) : (s.waitFlight q i).ctxs = s.ctxs := rfl
@[simp] theorem State.waitFlight_plans (s : State) (q i : Nat) : (s.waitFlight q i).plans = s.plans := rfl
@[simp] theorem State.waitFlight_gens (s : State) (q i : Nat) : (s.waitFlight q i).gens = s.gens := rfl
@[simp] theorem State.waitFlight_hashers (s : State) (q i : Nat) : (s.waitFlight q i).hashers = s.hashers := rfl
@[simp] theorem State.waitFlight_chans (s : State) (q i : Nat) : (s.waitFlight q i).chans = s.chans := rfl
@[simp] theorem State.waitFlight_ports (s : State) (q i : Nat) : (s.waitFlight q i).ports = s.ports := rfl
@[simp] theorem State.waitFlight_optics (s : State) (q i : Nat) : (s.waitFlight q i).optics = s.optics := rfl
@[simp] theorem State.waitFlight_req (s : State) (q i : Nat) : (s.waitFlight q i).req = s.req := rfl
@[simp] theorem State.waitFlight_pools (s : State) (q i : Nat) : (s.waitFlight q i).pools = s.pools := rfl
@[simp] theorem State.waitFlight_arrs (s : State) (q i : Nat) : (s.waitFlight q i).arrs = s.arrs := rfl
@[simp] theorem State.waitFlight_bents (s : State) (q i : Nat) : (s.waitFlight q i).bents = s.bents := rfl
@[simp] theorem State.waitFlight_atts (s : State) (q i : Nat) : (s.waitFlight q i).atts = s.atts := rfl
@[simp] theorem State.waitFlight_grads (s : State) (q i : Nat) : (s.waitFlight q i).grads = s.grads := rfl
@[simp] theorem State.waitFlight_folds (s : State) (q i : Nat) : (s.waitFlight q i).folds = s.folds := rfl
@[simp] theorem State.waitFlight_cals (s : State) (q i : Nat) : (s.waitFlight q i).cals = s.cals := rfl
@[simp] theorem State.waitFlight_owners (s : State) (q i : Nat) : (s.waitFlight q i).owners = s.owners := rfl
@[simp] theorem State.waitFlight_fab (s : State) (q i : Nat) : (s.waitFlight q i).fab = s.fab := rfl
@[simp] theorem State.waitFlight_snap (s : State) (q i : Nat) : (s.waitFlight q i).snap = s.snap := rfl

@[simp] theorem State.setSync_pending (s : State) (i v : Nat) : (s.setSync i v).pending = s.pending := rfl
@[simp] theorem State.setSync_variant (s : State) (i v : Nat) : (s.setSync i v).variant = s.variant := rfl
@[simp] theorem State.setSync_time (s : State) (i v : Nat) : (s.setSync i v).time = s.time := rfl
@[simp] theorem State.setSync_free (s : State) (i v : Nat) : (s.setSync i v).free = s.free := rfl
@[simp] theorem State.setSync_regs (s : State) (i v : Nat) : (s.setSync i v).regs = s.regs := rfl
@[simp] theorem State.setSync_sramFixed (s : State) (i v : Nat) : (s.setSync i v).sramFixed = s.sramFixed := rfl
@[simp] theorem State.setSync_sramWorn (s : State) (i v : Nat) : (s.setSync i v).sramWorn = s.sramWorn := rfl
@[simp] theorem State.setSync_out (s : State) (i v : Nat) : (s.setSync i v).out = s.out := rfl
@[simp] theorem State.setSync_sent (s : State) (i v : Nat) : (s.setSync i v).sent = s.sent := rfl
@[simp] theorem State.setSync_handles (s : State) (i v : Nat) : (s.setSync i v).handles = s.handles := rfl
@[simp] theorem State.setSync_mem (s : State) (i v : Nat) : (s.setSync i v).mem = s.mem := rfl
@[simp] theorem State.setSync_log (s : State) (i v : Nat) : (s.setSync i v).log = s.log := rfl
@[simp] theorem State.setSync_flash (s : State) (i v : Nat) : (s.setSync i v).flash = s.flash := rfl
@[simp] theorem State.setSync_ident (s : State) (i v : Nat) : (s.setSync i v).ident = s.ident := rfl
@[simp] theorem State.setSync_boot (s : State) (i v : Nat) : (s.setSync i v).boot = s.boot := rfl
@[simp] theorem State.setSync_pwr (s : State) (i v : Nat) : (s.setSync i v).pwr = s.pwr := rfl
@[simp] theorem State.setSync_wake (s : State) (i v : Nat) : (s.setSync i v).wake = s.wake := rfl
@[simp] theorem State.setSync_sensors (s : State) (i v : Nat) : (s.setSync i v).sensors = s.sensors := rfl
@[simp] theorem State.setSync_shut (s : State) (i v : Nat) : (s.setSync i v).shut = s.shut := rfl
@[simp] theorem State.setSync_que (s : State) (i v : Nat) : (s.setSync i v).que = s.que := rfl
@[simp] theorem State.setSync_ctxs (s : State) (i v : Nat) : (s.setSync i v).ctxs = s.ctxs := rfl
@[simp] theorem State.setSync_plans (s : State) (i v : Nat) : (s.setSync i v).plans = s.plans := rfl
@[simp] theorem State.setSync_gens (s : State) (i v : Nat) : (s.setSync i v).gens = s.gens := rfl
@[simp] theorem State.setSync_hashers (s : State) (i v : Nat) : (s.setSync i v).hashers = s.hashers := rfl
@[simp] theorem State.setSync_chans (s : State) (i v : Nat) : (s.setSync i v).chans = s.chans := rfl
@[simp] theorem State.setSync_ports (s : State) (i v : Nat) : (s.setSync i v).ports = s.ports := rfl
@[simp] theorem State.setSync_optics (s : State) (i v : Nat) : (s.setSync i v).optics = s.optics := rfl
@[simp] theorem State.setSync_req (s : State) (i v : Nat) : (s.setSync i v).req = s.req := rfl
@[simp] theorem State.setSync_pools (s : State) (i v : Nat) : (s.setSync i v).pools = s.pools := rfl
@[simp] theorem State.setSync_arrs (s : State) (i v : Nat) : (s.setSync i v).arrs = s.arrs := rfl
@[simp] theorem State.setSync_bents (s : State) (i v : Nat) : (s.setSync i v).bents = s.bents := rfl
@[simp] theorem State.setSync_atts (s : State) (i v : Nat) : (s.setSync i v).atts = s.atts := rfl
@[simp] theorem State.setSync_grads (s : State) (i v : Nat) : (s.setSync i v).grads = s.grads := rfl
@[simp] theorem State.setSync_folds (s : State) (i v : Nat) : (s.setSync i v).folds = s.folds := rfl
@[simp] theorem State.setSync_cals (s : State) (i v : Nat) : (s.setSync i v).cals = s.cals := rfl
@[simp] theorem State.setSync_owners (s : State) (i v : Nat) : (s.setSync i v).owners = s.owners := rfl
@[simp] theorem State.setSync_fab (s : State) (i v : Nat) : (s.setSync i v).fab = s.fab := rfl
@[simp] theorem State.setSync_snap (s : State) (i v : Nat) : (s.setSync i v).snap = s.snap := rfl

@[simp] theorem State.onMem_pending (s : State) (f : Mem → Mem) : (s.onMem f).pending = s.pending := rfl
@[simp] theorem State.onMem_variant (s : State) (f : Mem → Mem) : (s.onMem f).variant = s.variant := rfl
@[simp] theorem State.onMem_time (s : State) (f : Mem → Mem) : (s.onMem f).time = s.time := rfl
@[simp] theorem State.onMem_free (s : State) (f : Mem → Mem) : (s.onMem f).free = s.free := rfl
@[simp] theorem State.onMem_regs (s : State) (f : Mem → Mem) : (s.onMem f).regs = s.regs := rfl
@[simp] theorem State.onMem_sramFixed (s : State) (f : Mem → Mem) : (s.onMem f).sramFixed = s.sramFixed := rfl
@[simp] theorem State.onMem_sramWorn (s : State) (f : Mem → Mem) : (s.onMem f).sramWorn = s.sramWorn := rfl
@[simp] theorem State.onMem_out (s : State) (f : Mem → Mem) : (s.onMem f).out = s.out := rfl
@[simp] theorem State.onMem_sent (s : State) (f : Mem → Mem) : (s.onMem f).sent = s.sent := rfl
@[simp] theorem State.onMem_handles (s : State) (f : Mem → Mem) : (s.onMem f).handles = s.handles := rfl
@[simp] theorem State.onMem_log (s : State) (f : Mem → Mem) : (s.onMem f).log = s.log := rfl
@[simp] theorem State.onMem_flash (s : State) (f : Mem → Mem) : (s.onMem f).flash = s.flash := rfl
@[simp] theorem State.onMem_ident (s : State) (f : Mem → Mem) : (s.onMem f).ident = s.ident := rfl
@[simp] theorem State.onMem_boot (s : State) (f : Mem → Mem) : (s.onMem f).boot = s.boot := rfl
@[simp] theorem State.onMem_pwr (s : State) (f : Mem → Mem) : (s.onMem f).pwr = s.pwr := rfl
@[simp] theorem State.onMem_wake (s : State) (f : Mem → Mem) : (s.onMem f).wake = s.wake := rfl
@[simp] theorem State.onMem_sensors (s : State) (f : Mem → Mem) : (s.onMem f).sensors = s.sensors := rfl
@[simp] theorem State.onMem_shut (s : State) (f : Mem → Mem) : (s.onMem f).shut = s.shut := rfl
@[simp] theorem State.onMem_que (s : State) (f : Mem → Mem) : (s.onMem f).que = s.que := rfl
@[simp] theorem State.onMem_syncs (s : State) (f : Mem → Mem) : (s.onMem f).syncs = s.syncs := rfl
@[simp] theorem State.onMem_ctxs (s : State) (f : Mem → Mem) : (s.onMem f).ctxs = s.ctxs := rfl
@[simp] theorem State.onMem_plans (s : State) (f : Mem → Mem) : (s.onMem f).plans = s.plans := rfl
@[simp] theorem State.onMem_gens (s : State) (f : Mem → Mem) : (s.onMem f).gens = s.gens := rfl
@[simp] theorem State.onMem_hashers (s : State) (f : Mem → Mem) : (s.onMem f).hashers = s.hashers := rfl
@[simp] theorem State.onMem_chans (s : State) (f : Mem → Mem) : (s.onMem f).chans = s.chans := rfl
@[simp] theorem State.onMem_ports (s : State) (f : Mem → Mem) : (s.onMem f).ports = s.ports := rfl
@[simp] theorem State.onMem_optics (s : State) (f : Mem → Mem) : (s.onMem f).optics = s.optics := rfl
@[simp] theorem State.onMem_req (s : State) (f : Mem → Mem) : (s.onMem f).req = s.req := rfl
@[simp] theorem State.onMem_pools (s : State) (f : Mem → Mem) : (s.onMem f).pools = s.pools := rfl
@[simp] theorem State.onMem_arrs (s : State) (f : Mem → Mem) : (s.onMem f).arrs = s.arrs := rfl
@[simp] theorem State.onMem_bents (s : State) (f : Mem → Mem) : (s.onMem f).bents = s.bents := rfl
@[simp] theorem State.onMem_atts (s : State) (f : Mem → Mem) : (s.onMem f).atts = s.atts := rfl
@[simp] theorem State.onMem_grads (s : State) (f : Mem → Mem) : (s.onMem f).grads = s.grads := rfl
@[simp] theorem State.onMem_folds (s : State) (f : Mem → Mem) : (s.onMem f).folds = s.folds := rfl
@[simp] theorem State.onMem_cals (s : State) (f : Mem → Mem) : (s.onMem f).cals = s.cals := rfl
@[simp] theorem State.onMem_owners (s : State) (f : Mem → Mem) : (s.onMem f).owners = s.owners := rfl
@[simp] theorem State.onMem_fab (s : State) (f : Mem → Mem) : (s.onMem f).fab = s.fab := rfl
@[simp] theorem State.onMem_snap (s : State) (f : Mem → Mem) : (s.onMem f).snap = s.snap := rfl

@[simp] theorem State.setPlan_pending (s : State) (i : Nat) (x : Option PlanObj) : (s.setPlan i x).pending = s.pending := rfl
@[simp] theorem State.setPlan_variant (s : State) (i : Nat) (x : Option PlanObj) : (s.setPlan i x).variant = s.variant := rfl
@[simp] theorem State.setPlan_time (s : State) (i : Nat) (x : Option PlanObj) : (s.setPlan i x).time = s.time := rfl
@[simp] theorem State.setPlan_free (s : State) (i : Nat) (x : Option PlanObj) : (s.setPlan i x).free = s.free := rfl
@[simp] theorem State.setPlan_regs (s : State) (i : Nat) (x : Option PlanObj) : (s.setPlan i x).regs = s.regs := rfl
@[simp] theorem State.setPlan_sramFixed (s : State) (i : Nat) (x : Option PlanObj) : (s.setPlan i x).sramFixed = s.sramFixed := rfl
@[simp] theorem State.setPlan_sramWorn (s : State) (i : Nat) (x : Option PlanObj) : (s.setPlan i x).sramWorn = s.sramWorn := rfl
@[simp] theorem State.setPlan_out (s : State) (i : Nat) (x : Option PlanObj) : (s.setPlan i x).out = s.out := rfl
@[simp] theorem State.setPlan_sent (s : State) (i : Nat) (x : Option PlanObj) : (s.setPlan i x).sent = s.sent := rfl
@[simp] theorem State.setPlan_handles (s : State) (i : Nat) (x : Option PlanObj) : (s.setPlan i x).handles = s.handles := rfl
@[simp] theorem State.setPlan_mem (s : State) (i : Nat) (x : Option PlanObj) : (s.setPlan i x).mem = s.mem := rfl
@[simp] theorem State.setPlan_log (s : State) (i : Nat) (x : Option PlanObj) : (s.setPlan i x).log = s.log := rfl
@[simp] theorem State.setPlan_flash (s : State) (i : Nat) (x : Option PlanObj) : (s.setPlan i x).flash = s.flash := rfl
@[simp] theorem State.setPlan_ident (s : State) (i : Nat) (x : Option PlanObj) : (s.setPlan i x).ident = s.ident := rfl
@[simp] theorem State.setPlan_boot (s : State) (i : Nat) (x : Option PlanObj) : (s.setPlan i x).boot = s.boot := rfl
@[simp] theorem State.setPlan_pwr (s : State) (i : Nat) (x : Option PlanObj) : (s.setPlan i x).pwr = s.pwr := rfl
@[simp] theorem State.setPlan_wake (s : State) (i : Nat) (x : Option PlanObj) : (s.setPlan i x).wake = s.wake := rfl
@[simp] theorem State.setPlan_sensors (s : State) (i : Nat) (x : Option PlanObj) : (s.setPlan i x).sensors = s.sensors := rfl
@[simp] theorem State.setPlan_shut (s : State) (i : Nat) (x : Option PlanObj) : (s.setPlan i x).shut = s.shut := rfl
@[simp] theorem State.setPlan_que (s : State) (i : Nat) (x : Option PlanObj) : (s.setPlan i x).que = s.que := rfl
@[simp] theorem State.setPlan_syncs (s : State) (i : Nat) (x : Option PlanObj) : (s.setPlan i x).syncs = s.syncs := rfl
@[simp] theorem State.setPlan_ctxs (s : State) (i : Nat) (x : Option PlanObj) : (s.setPlan i x).ctxs = s.ctxs := rfl
@[simp] theorem State.setPlan_gens (s : State) (i : Nat) (x : Option PlanObj) : (s.setPlan i x).gens = s.gens := rfl
@[simp] theorem State.setPlan_hashers (s : State) (i : Nat) (x : Option PlanObj) : (s.setPlan i x).hashers = s.hashers := rfl
@[simp] theorem State.setPlan_chans (s : State) (i : Nat) (x : Option PlanObj) : (s.setPlan i x).chans = s.chans := rfl
@[simp] theorem State.setPlan_ports (s : State) (i : Nat) (x : Option PlanObj) : (s.setPlan i x).ports = s.ports := rfl
@[simp] theorem State.setPlan_optics (s : State) (i : Nat) (x : Option PlanObj) : (s.setPlan i x).optics = s.optics := rfl
@[simp] theorem State.setPlan_req (s : State) (i : Nat) (x : Option PlanObj) : (s.setPlan i x).req = s.req := rfl
@[simp] theorem State.setPlan_pools (s : State) (i : Nat) (x : Option PlanObj) : (s.setPlan i x).pools = s.pools := rfl
@[simp] theorem State.setPlan_arrs (s : State) (i : Nat) (x : Option PlanObj) : (s.setPlan i x).arrs = s.arrs := rfl
@[simp] theorem State.setPlan_bents (s : State) (i : Nat) (x : Option PlanObj) : (s.setPlan i x).bents = s.bents := rfl
@[simp] theorem State.setPlan_atts (s : State) (i : Nat) (x : Option PlanObj) : (s.setPlan i x).atts = s.atts := rfl
@[simp] theorem State.setPlan_grads (s : State) (i : Nat) (x : Option PlanObj) : (s.setPlan i x).grads = s.grads := rfl
@[simp] theorem State.setPlan_folds (s : State) (i : Nat) (x : Option PlanObj) : (s.setPlan i x).folds = s.folds := rfl
@[simp] theorem State.setPlan_cals (s : State) (i : Nat) (x : Option PlanObj) : (s.setPlan i x).cals = s.cals := rfl
@[simp] theorem State.setPlan_owners (s : State) (i : Nat) (x : Option PlanObj) : (s.setPlan i x).owners = s.owners := rfl
@[simp] theorem State.setPlan_fab (s : State) (i : Nat) (x : Option PlanObj) : (s.setPlan i x).fab = s.fab := rfl
@[simp] theorem State.setPlan_snap (s : State) (i : Nat) (x : Option PlanObj) : (s.setPlan i x).snap = s.snap := rfl

@[simp] theorem State.setGen_pending (s : State) (i : Nat) (x : Option Gen) : (s.setGen i x).pending = s.pending := rfl
@[simp] theorem State.setGen_variant (s : State) (i : Nat) (x : Option Gen) : (s.setGen i x).variant = s.variant := rfl
@[simp] theorem State.setGen_time (s : State) (i : Nat) (x : Option Gen) : (s.setGen i x).time = s.time := rfl
@[simp] theorem State.setGen_free (s : State) (i : Nat) (x : Option Gen) : (s.setGen i x).free = s.free := rfl
@[simp] theorem State.setGen_regs (s : State) (i : Nat) (x : Option Gen) : (s.setGen i x).regs = s.regs := rfl
@[simp] theorem State.setGen_sramFixed (s : State) (i : Nat) (x : Option Gen) : (s.setGen i x).sramFixed = s.sramFixed := rfl
@[simp] theorem State.setGen_sramWorn (s : State) (i : Nat) (x : Option Gen) : (s.setGen i x).sramWorn = s.sramWorn := rfl
@[simp] theorem State.setGen_out (s : State) (i : Nat) (x : Option Gen) : (s.setGen i x).out = s.out := rfl
@[simp] theorem State.setGen_sent (s : State) (i : Nat) (x : Option Gen) : (s.setGen i x).sent = s.sent := rfl
@[simp] theorem State.setGen_handles (s : State) (i : Nat) (x : Option Gen) : (s.setGen i x).handles = s.handles := rfl
@[simp] theorem State.setGen_mem (s : State) (i : Nat) (x : Option Gen) : (s.setGen i x).mem = s.mem := rfl
@[simp] theorem State.setGen_log (s : State) (i : Nat) (x : Option Gen) : (s.setGen i x).log = s.log := rfl
@[simp] theorem State.setGen_flash (s : State) (i : Nat) (x : Option Gen) : (s.setGen i x).flash = s.flash := rfl
@[simp] theorem State.setGen_ident (s : State) (i : Nat) (x : Option Gen) : (s.setGen i x).ident = s.ident := rfl
@[simp] theorem State.setGen_boot (s : State) (i : Nat) (x : Option Gen) : (s.setGen i x).boot = s.boot := rfl
@[simp] theorem State.setGen_pwr (s : State) (i : Nat) (x : Option Gen) : (s.setGen i x).pwr = s.pwr := rfl
@[simp] theorem State.setGen_wake (s : State) (i : Nat) (x : Option Gen) : (s.setGen i x).wake = s.wake := rfl
@[simp] theorem State.setGen_sensors (s : State) (i : Nat) (x : Option Gen) : (s.setGen i x).sensors = s.sensors := rfl
@[simp] theorem State.setGen_shut (s : State) (i : Nat) (x : Option Gen) : (s.setGen i x).shut = s.shut := rfl
@[simp] theorem State.setGen_que (s : State) (i : Nat) (x : Option Gen) : (s.setGen i x).que = s.que := rfl
@[simp] theorem State.setGen_syncs (s : State) (i : Nat) (x : Option Gen) : (s.setGen i x).syncs = s.syncs := rfl
@[simp] theorem State.setGen_ctxs (s : State) (i : Nat) (x : Option Gen) : (s.setGen i x).ctxs = s.ctxs := rfl
@[simp] theorem State.setGen_plans (s : State) (i : Nat) (x : Option Gen) : (s.setGen i x).plans = s.plans := rfl
@[simp] theorem State.setGen_hashers (s : State) (i : Nat) (x : Option Gen) : (s.setGen i x).hashers = s.hashers := rfl
@[simp] theorem State.setGen_chans (s : State) (i : Nat) (x : Option Gen) : (s.setGen i x).chans = s.chans := rfl
@[simp] theorem State.setGen_ports (s : State) (i : Nat) (x : Option Gen) : (s.setGen i x).ports = s.ports := rfl
@[simp] theorem State.setGen_optics (s : State) (i : Nat) (x : Option Gen) : (s.setGen i x).optics = s.optics := rfl
@[simp] theorem State.setGen_req (s : State) (i : Nat) (x : Option Gen) : (s.setGen i x).req = s.req := rfl
@[simp] theorem State.setGen_pools (s : State) (i : Nat) (x : Option Gen) : (s.setGen i x).pools = s.pools := rfl
@[simp] theorem State.setGen_arrs (s : State) (i : Nat) (x : Option Gen) : (s.setGen i x).arrs = s.arrs := rfl
@[simp] theorem State.setGen_bents (s : State) (i : Nat) (x : Option Gen) : (s.setGen i x).bents = s.bents := rfl
@[simp] theorem State.setGen_atts (s : State) (i : Nat) (x : Option Gen) : (s.setGen i x).atts = s.atts := rfl
@[simp] theorem State.setGen_grads (s : State) (i : Nat) (x : Option Gen) : (s.setGen i x).grads = s.grads := rfl
@[simp] theorem State.setGen_folds (s : State) (i : Nat) (x : Option Gen) : (s.setGen i x).folds = s.folds := rfl
@[simp] theorem State.setGen_cals (s : State) (i : Nat) (x : Option Gen) : (s.setGen i x).cals = s.cals := rfl
@[simp] theorem State.setGen_owners (s : State) (i : Nat) (x : Option Gen) : (s.setGen i x).owners = s.owners := rfl
@[simp] theorem State.setGen_fab (s : State) (i : Nat) (x : Option Gen) : (s.setGen i x).fab = s.fab := rfl
@[simp] theorem State.setGen_snap (s : State) (i : Nat) (x : Option Gen) : (s.setGen i x).snap = s.snap := rfl

@[simp] theorem State.setHasher_pending (s : State) (d : Nat) (x : Hasher) : (s.setHasher d x).pending = s.pending := rfl
@[simp] theorem State.setHasher_variant (s : State) (d : Nat) (x : Hasher) : (s.setHasher d x).variant = s.variant := rfl
@[simp] theorem State.setHasher_time (s : State) (d : Nat) (x : Hasher) : (s.setHasher d x).time = s.time := rfl
@[simp] theorem State.setHasher_free (s : State) (d : Nat) (x : Hasher) : (s.setHasher d x).free = s.free := rfl
@[simp] theorem State.setHasher_regs (s : State) (d : Nat) (x : Hasher) : (s.setHasher d x).regs = s.regs := rfl
@[simp] theorem State.setHasher_sramFixed (s : State) (d : Nat) (x : Hasher) : (s.setHasher d x).sramFixed = s.sramFixed := rfl
@[simp] theorem State.setHasher_sramWorn (s : State) (d : Nat) (x : Hasher) : (s.setHasher d x).sramWorn = s.sramWorn := rfl
@[simp] theorem State.setHasher_out (s : State) (d : Nat) (x : Hasher) : (s.setHasher d x).out = s.out := rfl
@[simp] theorem State.setHasher_sent (s : State) (d : Nat) (x : Hasher) : (s.setHasher d x).sent = s.sent := rfl
@[simp] theorem State.setHasher_handles (s : State) (d : Nat) (x : Hasher) : (s.setHasher d x).handles = s.handles := rfl
@[simp] theorem State.setHasher_mem (s : State) (d : Nat) (x : Hasher) : (s.setHasher d x).mem = s.mem := rfl
@[simp] theorem State.setHasher_log (s : State) (d : Nat) (x : Hasher) : (s.setHasher d x).log = s.log := rfl
@[simp] theorem State.setHasher_flash (s : State) (d : Nat) (x : Hasher) : (s.setHasher d x).flash = s.flash := rfl
@[simp] theorem State.setHasher_ident (s : State) (d : Nat) (x : Hasher) : (s.setHasher d x).ident = s.ident := rfl
@[simp] theorem State.setHasher_boot (s : State) (d : Nat) (x : Hasher) : (s.setHasher d x).boot = s.boot := rfl
@[simp] theorem State.setHasher_pwr (s : State) (d : Nat) (x : Hasher) : (s.setHasher d x).pwr = s.pwr := rfl
@[simp] theorem State.setHasher_wake (s : State) (d : Nat) (x : Hasher) : (s.setHasher d x).wake = s.wake := rfl
@[simp] theorem State.setHasher_sensors (s : State) (d : Nat) (x : Hasher) : (s.setHasher d x).sensors = s.sensors := rfl
@[simp] theorem State.setHasher_shut (s : State) (d : Nat) (x : Hasher) : (s.setHasher d x).shut = s.shut := rfl
@[simp] theorem State.setHasher_que (s : State) (d : Nat) (x : Hasher) : (s.setHasher d x).que = s.que := rfl
@[simp] theorem State.setHasher_syncs (s : State) (d : Nat) (x : Hasher) : (s.setHasher d x).syncs = s.syncs := rfl
@[simp] theorem State.setHasher_ctxs (s : State) (d : Nat) (x : Hasher) : (s.setHasher d x).ctxs = s.ctxs := rfl
@[simp] theorem State.setHasher_plans (s : State) (d : Nat) (x : Hasher) : (s.setHasher d x).plans = s.plans := rfl
@[simp] theorem State.setHasher_gens (s : State) (d : Nat) (x : Hasher) : (s.setHasher d x).gens = s.gens := rfl
@[simp] theorem State.setHasher_chans (s : State) (d : Nat) (x : Hasher) : (s.setHasher d x).chans = s.chans := rfl
@[simp] theorem State.setHasher_ports (s : State) (d : Nat) (x : Hasher) : (s.setHasher d x).ports = s.ports := rfl
@[simp] theorem State.setHasher_optics (s : State) (d : Nat) (x : Hasher) : (s.setHasher d x).optics = s.optics := rfl
@[simp] theorem State.setHasher_req (s : State) (d : Nat) (x : Hasher) : (s.setHasher d x).req = s.req := rfl
@[simp] theorem State.setHasher_pools (s : State) (d : Nat) (x : Hasher) : (s.setHasher d x).pools = s.pools := rfl
@[simp] theorem State.setHasher_arrs (s : State) (d : Nat) (x : Hasher) : (s.setHasher d x).arrs = s.arrs := rfl
@[simp] theorem State.setHasher_bents (s : State) (d : Nat) (x : Hasher) : (s.setHasher d x).bents = s.bents := rfl
@[simp] theorem State.setHasher_atts (s : State) (d : Nat) (x : Hasher) : (s.setHasher d x).atts = s.atts := rfl
@[simp] theorem State.setHasher_grads (s : State) (d : Nat) (x : Hasher) : (s.setHasher d x).grads = s.grads := rfl
@[simp] theorem State.setHasher_folds (s : State) (d : Nat) (x : Hasher) : (s.setHasher d x).folds = s.folds := rfl
@[simp] theorem State.setHasher_cals (s : State) (d : Nat) (x : Hasher) : (s.setHasher d x).cals = s.cals := rfl
@[simp] theorem State.setHasher_owners (s : State) (d : Nat) (x : Hasher) : (s.setHasher d x).owners = s.owners := rfl
@[simp] theorem State.setHasher_fab (s : State) (d : Nat) (x : Hasher) : (s.setHasher d x).fab = s.fab := rfl
@[simp] theorem State.setHasher_snap (s : State) (d : Nat) (x : Hasher) : (s.setHasher d x).snap = s.snap := rfl

@[simp] theorem State.setChan_pending (s : State) (i : Nat) (x : Option Channel) : (s.setChan i x).pending = s.pending := rfl
@[simp] theorem State.setChan_variant (s : State) (i : Nat) (x : Option Channel) : (s.setChan i x).variant = s.variant := rfl
@[simp] theorem State.setChan_time (s : State) (i : Nat) (x : Option Channel) : (s.setChan i x).time = s.time := rfl
@[simp] theorem State.setChan_free (s : State) (i : Nat) (x : Option Channel) : (s.setChan i x).free = s.free := rfl
@[simp] theorem State.setChan_regs (s : State) (i : Nat) (x : Option Channel) : (s.setChan i x).regs = s.regs := rfl
@[simp] theorem State.setChan_sramFixed (s : State) (i : Nat) (x : Option Channel) : (s.setChan i x).sramFixed = s.sramFixed := rfl
@[simp] theorem State.setChan_sramWorn (s : State) (i : Nat) (x : Option Channel) : (s.setChan i x).sramWorn = s.sramWorn := rfl
@[simp] theorem State.setChan_out (s : State) (i : Nat) (x : Option Channel) : (s.setChan i x).out = s.out := rfl
@[simp] theorem State.setChan_sent (s : State) (i : Nat) (x : Option Channel) : (s.setChan i x).sent = s.sent := rfl
@[simp] theorem State.setChan_handles (s : State) (i : Nat) (x : Option Channel) : (s.setChan i x).handles = s.handles := rfl
@[simp] theorem State.setChan_mem (s : State) (i : Nat) (x : Option Channel) : (s.setChan i x).mem = s.mem := rfl
@[simp] theorem State.setChan_log (s : State) (i : Nat) (x : Option Channel) : (s.setChan i x).log = s.log := rfl
@[simp] theorem State.setChan_flash (s : State) (i : Nat) (x : Option Channel) : (s.setChan i x).flash = s.flash := rfl
@[simp] theorem State.setChan_ident (s : State) (i : Nat) (x : Option Channel) : (s.setChan i x).ident = s.ident := rfl
@[simp] theorem State.setChan_boot (s : State) (i : Nat) (x : Option Channel) : (s.setChan i x).boot = s.boot := rfl
@[simp] theorem State.setChan_pwr (s : State) (i : Nat) (x : Option Channel) : (s.setChan i x).pwr = s.pwr := rfl
@[simp] theorem State.setChan_wake (s : State) (i : Nat) (x : Option Channel) : (s.setChan i x).wake = s.wake := rfl
@[simp] theorem State.setChan_sensors (s : State) (i : Nat) (x : Option Channel) : (s.setChan i x).sensors = s.sensors := rfl
@[simp] theorem State.setChan_shut (s : State) (i : Nat) (x : Option Channel) : (s.setChan i x).shut = s.shut := rfl
@[simp] theorem State.setChan_que (s : State) (i : Nat) (x : Option Channel) : (s.setChan i x).que = s.que := rfl
@[simp] theorem State.setChan_syncs (s : State) (i : Nat) (x : Option Channel) : (s.setChan i x).syncs = s.syncs := rfl
@[simp] theorem State.setChan_ctxs (s : State) (i : Nat) (x : Option Channel) : (s.setChan i x).ctxs = s.ctxs := rfl
@[simp] theorem State.setChan_plans (s : State) (i : Nat) (x : Option Channel) : (s.setChan i x).plans = s.plans := rfl
@[simp] theorem State.setChan_gens (s : State) (i : Nat) (x : Option Channel) : (s.setChan i x).gens = s.gens := rfl
@[simp] theorem State.setChan_hashers (s : State) (i : Nat) (x : Option Channel) : (s.setChan i x).hashers = s.hashers := rfl
@[simp] theorem State.setChan_ports (s : State) (i : Nat) (x : Option Channel) : (s.setChan i x).ports = s.ports := rfl
@[simp] theorem State.setChan_optics (s : State) (i : Nat) (x : Option Channel) : (s.setChan i x).optics = s.optics := rfl
@[simp] theorem State.setChan_req (s : State) (i : Nat) (x : Option Channel) : (s.setChan i x).req = s.req := rfl
@[simp] theorem State.setChan_pools (s : State) (i : Nat) (x : Option Channel) : (s.setChan i x).pools = s.pools := rfl
@[simp] theorem State.setChan_arrs (s : State) (i : Nat) (x : Option Channel) : (s.setChan i x).arrs = s.arrs := rfl
@[simp] theorem State.setChan_bents (s : State) (i : Nat) (x : Option Channel) : (s.setChan i x).bents = s.bents := rfl
@[simp] theorem State.setChan_atts (s : State) (i : Nat) (x : Option Channel) : (s.setChan i x).atts = s.atts := rfl
@[simp] theorem State.setChan_grads (s : State) (i : Nat) (x : Option Channel) : (s.setChan i x).grads = s.grads := rfl
@[simp] theorem State.setChan_folds (s : State) (i : Nat) (x : Option Channel) : (s.setChan i x).folds = s.folds := rfl
@[simp] theorem State.setChan_cals (s : State) (i : Nat) (x : Option Channel) : (s.setChan i x).cals = s.cals := rfl
@[simp] theorem State.setChan_owners (s : State) (i : Nat) (x : Option Channel) : (s.setChan i x).owners = s.owners := rfl
@[simp] theorem State.setChan_fab (s : State) (i : Nat) (x : Option Channel) : (s.setChan i x).fab = s.fab := rfl
@[simp] theorem State.setChan_snap (s : State) (i : Nat) (x : Option Channel) : (s.setChan i x).snap = s.snap := rfl

@[simp] theorem State.setPort_pending (s : State) (i : Nat) (x : Port) : (s.setPort i x).pending = s.pending := rfl
@[simp] theorem State.setPort_variant (s : State) (i : Nat) (x : Port) : (s.setPort i x).variant = s.variant := rfl
@[simp] theorem State.setPort_time (s : State) (i : Nat) (x : Port) : (s.setPort i x).time = s.time := rfl
@[simp] theorem State.setPort_free (s : State) (i : Nat) (x : Port) : (s.setPort i x).free = s.free := rfl
@[simp] theorem State.setPort_regs (s : State) (i : Nat) (x : Port) : (s.setPort i x).regs = s.regs := rfl
@[simp] theorem State.setPort_sramFixed (s : State) (i : Nat) (x : Port) : (s.setPort i x).sramFixed = s.sramFixed := rfl
@[simp] theorem State.setPort_sramWorn (s : State) (i : Nat) (x : Port) : (s.setPort i x).sramWorn = s.sramWorn := rfl
@[simp] theorem State.setPort_out (s : State) (i : Nat) (x : Port) : (s.setPort i x).out = s.out := rfl
@[simp] theorem State.setPort_sent (s : State) (i : Nat) (x : Port) : (s.setPort i x).sent = s.sent := rfl
@[simp] theorem State.setPort_handles (s : State) (i : Nat) (x : Port) : (s.setPort i x).handles = s.handles := rfl
@[simp] theorem State.setPort_mem (s : State) (i : Nat) (x : Port) : (s.setPort i x).mem = s.mem := rfl
@[simp] theorem State.setPort_log (s : State) (i : Nat) (x : Port) : (s.setPort i x).log = s.log := rfl
@[simp] theorem State.setPort_flash (s : State) (i : Nat) (x : Port) : (s.setPort i x).flash = s.flash := rfl
@[simp] theorem State.setPort_ident (s : State) (i : Nat) (x : Port) : (s.setPort i x).ident = s.ident := rfl
@[simp] theorem State.setPort_boot (s : State) (i : Nat) (x : Port) : (s.setPort i x).boot = s.boot := rfl
@[simp] theorem State.setPort_pwr (s : State) (i : Nat) (x : Port) : (s.setPort i x).pwr = s.pwr := rfl
@[simp] theorem State.setPort_wake (s : State) (i : Nat) (x : Port) : (s.setPort i x).wake = s.wake := rfl
@[simp] theorem State.setPort_sensors (s : State) (i : Nat) (x : Port) : (s.setPort i x).sensors = s.sensors := rfl
@[simp] theorem State.setPort_shut (s : State) (i : Nat) (x : Port) : (s.setPort i x).shut = s.shut := rfl
@[simp] theorem State.setPort_que (s : State) (i : Nat) (x : Port) : (s.setPort i x).que = s.que := rfl
@[simp] theorem State.setPort_syncs (s : State) (i : Nat) (x : Port) : (s.setPort i x).syncs = s.syncs := rfl
@[simp] theorem State.setPort_ctxs (s : State) (i : Nat) (x : Port) : (s.setPort i x).ctxs = s.ctxs := rfl
@[simp] theorem State.setPort_plans (s : State) (i : Nat) (x : Port) : (s.setPort i x).plans = s.plans := rfl
@[simp] theorem State.setPort_gens (s : State) (i : Nat) (x : Port) : (s.setPort i x).gens = s.gens := rfl
@[simp] theorem State.setPort_hashers (s : State) (i : Nat) (x : Port) : (s.setPort i x).hashers = s.hashers := rfl
@[simp] theorem State.setPort_chans (s : State) (i : Nat) (x : Port) : (s.setPort i x).chans = s.chans := rfl
@[simp] theorem State.setPort_optics (s : State) (i : Nat) (x : Port) : (s.setPort i x).optics = s.optics := rfl
@[simp] theorem State.setPort_req (s : State) (i : Nat) (x : Port) : (s.setPort i x).req = s.req := rfl
@[simp] theorem State.setPort_pools (s : State) (i : Nat) (x : Port) : (s.setPort i x).pools = s.pools := rfl
@[simp] theorem State.setPort_arrs (s : State) (i : Nat) (x : Port) : (s.setPort i x).arrs = s.arrs := rfl
@[simp] theorem State.setPort_bents (s : State) (i : Nat) (x : Port) : (s.setPort i x).bents = s.bents := rfl
@[simp] theorem State.setPort_atts (s : State) (i : Nat) (x : Port) : (s.setPort i x).atts = s.atts := rfl
@[simp] theorem State.setPort_grads (s : State) (i : Nat) (x : Port) : (s.setPort i x).grads = s.grads := rfl
@[simp] theorem State.setPort_folds (s : State) (i : Nat) (x : Port) : (s.setPort i x).folds = s.folds := rfl
@[simp] theorem State.setPort_cals (s : State) (i : Nat) (x : Port) : (s.setPort i x).cals = s.cals := rfl
@[simp] theorem State.setPort_owners (s : State) (i : Nat) (x : Port) : (s.setPort i x).owners = s.owners := rfl
@[simp] theorem State.setPort_fab (s : State) (i : Nat) (x : Port) : (s.setPort i x).fab = s.fab := rfl
@[simp] theorem State.setPort_snap (s : State) (i : Nat) (x : Port) : (s.setPort i x).snap = s.snap := rfl

@[simp] theorem State.setOptic_pending (s : State) (i : Nat) (x : Optic) : (s.setOptic i x).pending = s.pending := rfl
@[simp] theorem State.setOptic_variant (s : State) (i : Nat) (x : Optic) : (s.setOptic i x).variant = s.variant := rfl
@[simp] theorem State.setOptic_time (s : State) (i : Nat) (x : Optic) : (s.setOptic i x).time = s.time := rfl
@[simp] theorem State.setOptic_free (s : State) (i : Nat) (x : Optic) : (s.setOptic i x).free = s.free := rfl
@[simp] theorem State.setOptic_regs (s : State) (i : Nat) (x : Optic) : (s.setOptic i x).regs = s.regs := rfl
@[simp] theorem State.setOptic_sramFixed (s : State) (i : Nat) (x : Optic) : (s.setOptic i x).sramFixed = s.sramFixed := rfl
@[simp] theorem State.setOptic_sramWorn (s : State) (i : Nat) (x : Optic) : (s.setOptic i x).sramWorn = s.sramWorn := rfl
@[simp] theorem State.setOptic_out (s : State) (i : Nat) (x : Optic) : (s.setOptic i x).out = s.out := rfl
@[simp] theorem State.setOptic_sent (s : State) (i : Nat) (x : Optic) : (s.setOptic i x).sent = s.sent := rfl
@[simp] theorem State.setOptic_handles (s : State) (i : Nat) (x : Optic) : (s.setOptic i x).handles = s.handles := rfl
@[simp] theorem State.setOptic_mem (s : State) (i : Nat) (x : Optic) : (s.setOptic i x).mem = s.mem := rfl
@[simp] theorem State.setOptic_log (s : State) (i : Nat) (x : Optic) : (s.setOptic i x).log = s.log := rfl
@[simp] theorem State.setOptic_flash (s : State) (i : Nat) (x : Optic) : (s.setOptic i x).flash = s.flash := rfl
@[simp] theorem State.setOptic_ident (s : State) (i : Nat) (x : Optic) : (s.setOptic i x).ident = s.ident := rfl
@[simp] theorem State.setOptic_boot (s : State) (i : Nat) (x : Optic) : (s.setOptic i x).boot = s.boot := rfl
@[simp] theorem State.setOptic_pwr (s : State) (i : Nat) (x : Optic) : (s.setOptic i x).pwr = s.pwr := rfl
@[simp] theorem State.setOptic_wake (s : State) (i : Nat) (x : Optic) : (s.setOptic i x).wake = s.wake := rfl
@[simp] theorem State.setOptic_sensors (s : State) (i : Nat) (x : Optic) : (s.setOptic i x).sensors = s.sensors := rfl
@[simp] theorem State.setOptic_shut (s : State) (i : Nat) (x : Optic) : (s.setOptic i x).shut = s.shut := rfl
@[simp] theorem State.setOptic_que (s : State) (i : Nat) (x : Optic) : (s.setOptic i x).que = s.que := rfl
@[simp] theorem State.setOptic_syncs (s : State) (i : Nat) (x : Optic) : (s.setOptic i x).syncs = s.syncs := rfl
@[simp] theorem State.setOptic_ctxs (s : State) (i : Nat) (x : Optic) : (s.setOptic i x).ctxs = s.ctxs := rfl
@[simp] theorem State.setOptic_plans (s : State) (i : Nat) (x : Optic) : (s.setOptic i x).plans = s.plans := rfl
@[simp] theorem State.setOptic_gens (s : State) (i : Nat) (x : Optic) : (s.setOptic i x).gens = s.gens := rfl
@[simp] theorem State.setOptic_hashers (s : State) (i : Nat) (x : Optic) : (s.setOptic i x).hashers = s.hashers := rfl
@[simp] theorem State.setOptic_chans (s : State) (i : Nat) (x : Optic) : (s.setOptic i x).chans = s.chans := rfl
@[simp] theorem State.setOptic_ports (s : State) (i : Nat) (x : Optic) : (s.setOptic i x).ports = s.ports := rfl
@[simp] theorem State.setOptic_req (s : State) (i : Nat) (x : Optic) : (s.setOptic i x).req = s.req := rfl
@[simp] theorem State.setOptic_pools (s : State) (i : Nat) (x : Optic) : (s.setOptic i x).pools = s.pools := rfl
@[simp] theorem State.setOptic_arrs (s : State) (i : Nat) (x : Optic) : (s.setOptic i x).arrs = s.arrs := rfl
@[simp] theorem State.setOptic_bents (s : State) (i : Nat) (x : Optic) : (s.setOptic i x).bents = s.bents := rfl
@[simp] theorem State.setOptic_atts (s : State) (i : Nat) (x : Optic) : (s.setOptic i x).atts = s.atts := rfl
@[simp] theorem State.setOptic_grads (s : State) (i : Nat) (x : Optic) : (s.setOptic i x).grads = s.grads := rfl
@[simp] theorem State.setOptic_folds (s : State) (i : Nat) (x : Optic) : (s.setOptic i x).folds = s.folds := rfl
@[simp] theorem State.setOptic_cals (s : State) (i : Nat) (x : Optic) : (s.setOptic i x).cals = s.cals := rfl
@[simp] theorem State.setOptic_owners (s : State) (i : Nat) (x : Optic) : (s.setOptic i x).owners = s.owners := rfl
@[simp] theorem State.setOptic_fab (s : State) (i : Nat) (x : Optic) : (s.setOptic i x).fab = s.fab := rfl
@[simp] theorem State.setOptic_snap (s : State) (i : Nat) (x : Optic) : (s.setOptic i x).snap = s.snap := rfl

@[simp] theorem State.onPwr_pending (s : State) (f : Pwr → Pwr) : (s.onPwr f).pending = s.pending := rfl
@[simp] theorem State.onPwr_variant (s : State) (f : Pwr → Pwr) : (s.onPwr f).variant = s.variant := rfl
@[simp] theorem State.onPwr_time (s : State) (f : Pwr → Pwr) : (s.onPwr f).time = s.time := rfl
@[simp] theorem State.onPwr_free (s : State) (f : Pwr → Pwr) : (s.onPwr f).free = s.free := rfl
@[simp] theorem State.onPwr_regs (s : State) (f : Pwr → Pwr) : (s.onPwr f).regs = s.regs := rfl
@[simp] theorem State.onPwr_sramFixed (s : State) (f : Pwr → Pwr) : (s.onPwr f).sramFixed = s.sramFixed := rfl
@[simp] theorem State.onPwr_sramWorn (s : State) (f : Pwr → Pwr) : (s.onPwr f).sramWorn = s.sramWorn := rfl
@[simp] theorem State.onPwr_out (s : State) (f : Pwr → Pwr) : (s.onPwr f).out = s.out := rfl
@[simp] theorem State.onPwr_sent (s : State) (f : Pwr → Pwr) : (s.onPwr f).sent = s.sent := rfl
@[simp] theorem State.onPwr_handles (s : State) (f : Pwr → Pwr) : (s.onPwr f).handles = s.handles := rfl
@[simp] theorem State.onPwr_mem (s : State) (f : Pwr → Pwr) : (s.onPwr f).mem = s.mem := rfl
@[simp] theorem State.onPwr_log (s : State) (f : Pwr → Pwr) : (s.onPwr f).log = s.log := rfl
@[simp] theorem State.onPwr_flash (s : State) (f : Pwr → Pwr) : (s.onPwr f).flash = s.flash := rfl
@[simp] theorem State.onPwr_ident (s : State) (f : Pwr → Pwr) : (s.onPwr f).ident = s.ident := rfl
@[simp] theorem State.onPwr_boot (s : State) (f : Pwr → Pwr) : (s.onPwr f).boot = s.boot := rfl
@[simp] theorem State.onPwr_wake (s : State) (f : Pwr → Pwr) : (s.onPwr f).wake = s.wake := rfl
@[simp] theorem State.onPwr_sensors (s : State) (f : Pwr → Pwr) : (s.onPwr f).sensors = s.sensors := rfl
@[simp] theorem State.onPwr_shut (s : State) (f : Pwr → Pwr) : (s.onPwr f).shut = s.shut := rfl
@[simp] theorem State.onPwr_que (s : State) (f : Pwr → Pwr) : (s.onPwr f).que = s.que := rfl
@[simp] theorem State.onPwr_syncs (s : State) (f : Pwr → Pwr) : (s.onPwr f).syncs = s.syncs := rfl
@[simp] theorem State.onPwr_ctxs (s : State) (f : Pwr → Pwr) : (s.onPwr f).ctxs = s.ctxs := rfl
@[simp] theorem State.onPwr_plans (s : State) (f : Pwr → Pwr) : (s.onPwr f).plans = s.plans := rfl
@[simp] theorem State.onPwr_gens (s : State) (f : Pwr → Pwr) : (s.onPwr f).gens = s.gens := rfl
@[simp] theorem State.onPwr_hashers (s : State) (f : Pwr → Pwr) : (s.onPwr f).hashers = s.hashers := rfl
@[simp] theorem State.onPwr_chans (s : State) (f : Pwr → Pwr) : (s.onPwr f).chans = s.chans := rfl
@[simp] theorem State.onPwr_ports (s : State) (f : Pwr → Pwr) : (s.onPwr f).ports = s.ports := rfl
@[simp] theorem State.onPwr_optics (s : State) (f : Pwr → Pwr) : (s.onPwr f).optics = s.optics := rfl
@[simp] theorem State.onPwr_req (s : State) (f : Pwr → Pwr) : (s.onPwr f).req = s.req := rfl
@[simp] theorem State.onPwr_pools (s : State) (f : Pwr → Pwr) : (s.onPwr f).pools = s.pools := rfl
@[simp] theorem State.onPwr_arrs (s : State) (f : Pwr → Pwr) : (s.onPwr f).arrs = s.arrs := rfl
@[simp] theorem State.onPwr_bents (s : State) (f : Pwr → Pwr) : (s.onPwr f).bents = s.bents := rfl
@[simp] theorem State.onPwr_atts (s : State) (f : Pwr → Pwr) : (s.onPwr f).atts = s.atts := rfl
@[simp] theorem State.onPwr_grads (s : State) (f : Pwr → Pwr) : (s.onPwr f).grads = s.grads := rfl
@[simp] theorem State.onPwr_folds (s : State) (f : Pwr → Pwr) : (s.onPwr f).folds = s.folds := rfl
@[simp] theorem State.onPwr_cals (s : State) (f : Pwr → Pwr) : (s.onPwr f).cals = s.cals := rfl
@[simp] theorem State.onPwr_owners (s : State) (f : Pwr → Pwr) : (s.onPwr f).owners = s.owners := rfl
@[simp] theorem State.onPwr_fab (s : State) (f : Pwr → Pwr) : (s.onPwr f).fab = s.fab := rfl
@[simp] theorem State.onPwr_snap (s : State) (f : Pwr → Pwr) : (s.onPwr f).snap = s.snap := rfl

@[simp] theorem State.onBoot_pending (s : State) (f : Boot → Boot) : (s.onBoot f).pending = s.pending := rfl
@[simp] theorem State.onBoot_variant (s : State) (f : Boot → Boot) : (s.onBoot f).variant = s.variant := rfl
@[simp] theorem State.onBoot_time (s : State) (f : Boot → Boot) : (s.onBoot f).time = s.time := rfl
@[simp] theorem State.onBoot_free (s : State) (f : Boot → Boot) : (s.onBoot f).free = s.free := rfl
@[simp] theorem State.onBoot_regs (s : State) (f : Boot → Boot) : (s.onBoot f).regs = s.regs := rfl
@[simp] theorem State.onBoot_sramFixed (s : State) (f : Boot → Boot) : (s.onBoot f).sramFixed = s.sramFixed := rfl
@[simp] theorem State.onBoot_sramWorn (s : State) (f : Boot → Boot) : (s.onBoot f).sramWorn = s.sramWorn := rfl
@[simp] theorem State.onBoot_out (s : State) (f : Boot → Boot) : (s.onBoot f).out = s.out := rfl
@[simp] theorem State.onBoot_sent (s : State) (f : Boot → Boot) : (s.onBoot f).sent = s.sent := rfl
@[simp] theorem State.onBoot_handles (s : State) (f : Boot → Boot) : (s.onBoot f).handles = s.handles := rfl
@[simp] theorem State.onBoot_mem (s : State) (f : Boot → Boot) : (s.onBoot f).mem = s.mem := rfl
@[simp] theorem State.onBoot_log (s : State) (f : Boot → Boot) : (s.onBoot f).log = s.log := rfl
@[simp] theorem State.onBoot_flash (s : State) (f : Boot → Boot) : (s.onBoot f).flash = s.flash := rfl
@[simp] theorem State.onBoot_ident (s : State) (f : Boot → Boot) : (s.onBoot f).ident = s.ident := rfl
@[simp] theorem State.onBoot_pwr (s : State) (f : Boot → Boot) : (s.onBoot f).pwr = s.pwr := rfl
@[simp] theorem State.onBoot_wake (s : State) (f : Boot → Boot) : (s.onBoot f).wake = s.wake := rfl
@[simp] theorem State.onBoot_sensors (s : State) (f : Boot → Boot) : (s.onBoot f).sensors = s.sensors := rfl
@[simp] theorem State.onBoot_shut (s : State) (f : Boot → Boot) : (s.onBoot f).shut = s.shut := rfl
@[simp] theorem State.onBoot_que (s : State) (f : Boot → Boot) : (s.onBoot f).que = s.que := rfl
@[simp] theorem State.onBoot_syncs (s : State) (f : Boot → Boot) : (s.onBoot f).syncs = s.syncs := rfl
@[simp] theorem State.onBoot_ctxs (s : State) (f : Boot → Boot) : (s.onBoot f).ctxs = s.ctxs := rfl
@[simp] theorem State.onBoot_plans (s : State) (f : Boot → Boot) : (s.onBoot f).plans = s.plans := rfl
@[simp] theorem State.onBoot_gens (s : State) (f : Boot → Boot) : (s.onBoot f).gens = s.gens := rfl
@[simp] theorem State.onBoot_hashers (s : State) (f : Boot → Boot) : (s.onBoot f).hashers = s.hashers := rfl
@[simp] theorem State.onBoot_chans (s : State) (f : Boot → Boot) : (s.onBoot f).chans = s.chans := rfl
@[simp] theorem State.onBoot_ports (s : State) (f : Boot → Boot) : (s.onBoot f).ports = s.ports := rfl
@[simp] theorem State.onBoot_optics (s : State) (f : Boot → Boot) : (s.onBoot f).optics = s.optics := rfl
@[simp] theorem State.onBoot_req (s : State) (f : Boot → Boot) : (s.onBoot f).req = s.req := rfl
@[simp] theorem State.onBoot_pools (s : State) (f : Boot → Boot) : (s.onBoot f).pools = s.pools := rfl
@[simp] theorem State.onBoot_arrs (s : State) (f : Boot → Boot) : (s.onBoot f).arrs = s.arrs := rfl
@[simp] theorem State.onBoot_bents (s : State) (f : Boot → Boot) : (s.onBoot f).bents = s.bents := rfl
@[simp] theorem State.onBoot_atts (s : State) (f : Boot → Boot) : (s.onBoot f).atts = s.atts := rfl
@[simp] theorem State.onBoot_grads (s : State) (f : Boot → Boot) : (s.onBoot f).grads = s.grads := rfl
@[simp] theorem State.onBoot_folds (s : State) (f : Boot → Boot) : (s.onBoot f).folds = s.folds := rfl
@[simp] theorem State.onBoot_cals (s : State) (f : Boot → Boot) : (s.onBoot f).cals = s.cals := rfl
@[simp] theorem State.onBoot_owners (s : State) (f : Boot → Boot) : (s.onBoot f).owners = s.owners := rfl
@[simp] theorem State.onBoot_fab (s : State) (f : Boot → Boot) : (s.onBoot f).fab = s.fab := rfl
@[simp] theorem State.onBoot_snap (s : State) (f : Boot → Boot) : (s.onBoot f).snap = s.snap := rfl

@[simp] theorem State.onIdent_pending (s : State) (f : Ident → Ident) : (s.onIdent f).pending = s.pending := rfl
@[simp] theorem State.onIdent_variant (s : State) (f : Ident → Ident) : (s.onIdent f).variant = s.variant := rfl
@[simp] theorem State.onIdent_time (s : State) (f : Ident → Ident) : (s.onIdent f).time = s.time := rfl
@[simp] theorem State.onIdent_free (s : State) (f : Ident → Ident) : (s.onIdent f).free = s.free := rfl
@[simp] theorem State.onIdent_regs (s : State) (f : Ident → Ident) : (s.onIdent f).regs = s.regs := rfl
@[simp] theorem State.onIdent_sramFixed (s : State) (f : Ident → Ident) : (s.onIdent f).sramFixed = s.sramFixed := rfl
@[simp] theorem State.onIdent_sramWorn (s : State) (f : Ident → Ident) : (s.onIdent f).sramWorn = s.sramWorn := rfl
@[simp] theorem State.onIdent_out (s : State) (f : Ident → Ident) : (s.onIdent f).out = s.out := rfl
@[simp] theorem State.onIdent_sent (s : State) (f : Ident → Ident) : (s.onIdent f).sent = s.sent := rfl
@[simp] theorem State.onIdent_handles (s : State) (f : Ident → Ident) : (s.onIdent f).handles = s.handles := rfl
@[simp] theorem State.onIdent_mem (s : State) (f : Ident → Ident) : (s.onIdent f).mem = s.mem := rfl
@[simp] theorem State.onIdent_log (s : State) (f : Ident → Ident) : (s.onIdent f).log = s.log := rfl
@[simp] theorem State.onIdent_flash (s : State) (f : Ident → Ident) : (s.onIdent f).flash = s.flash := rfl
@[simp] theorem State.onIdent_boot (s : State) (f : Ident → Ident) : (s.onIdent f).boot = s.boot := rfl
@[simp] theorem State.onIdent_pwr (s : State) (f : Ident → Ident) : (s.onIdent f).pwr = s.pwr := rfl
@[simp] theorem State.onIdent_wake (s : State) (f : Ident → Ident) : (s.onIdent f).wake = s.wake := rfl
@[simp] theorem State.onIdent_sensors (s : State) (f : Ident → Ident) : (s.onIdent f).sensors = s.sensors := rfl
@[simp] theorem State.onIdent_shut (s : State) (f : Ident → Ident) : (s.onIdent f).shut = s.shut := rfl
@[simp] theorem State.onIdent_que (s : State) (f : Ident → Ident) : (s.onIdent f).que = s.que := rfl
@[simp] theorem State.onIdent_syncs (s : State) (f : Ident → Ident) : (s.onIdent f).syncs = s.syncs := rfl
@[simp] theorem State.onIdent_ctxs (s : State) (f : Ident → Ident) : (s.onIdent f).ctxs = s.ctxs := rfl
@[simp] theorem State.onIdent_plans (s : State) (f : Ident → Ident) : (s.onIdent f).plans = s.plans := rfl
@[simp] theorem State.onIdent_gens (s : State) (f : Ident → Ident) : (s.onIdent f).gens = s.gens := rfl
@[simp] theorem State.onIdent_hashers (s : State) (f : Ident → Ident) : (s.onIdent f).hashers = s.hashers := rfl
@[simp] theorem State.onIdent_chans (s : State) (f : Ident → Ident) : (s.onIdent f).chans = s.chans := rfl
@[simp] theorem State.onIdent_ports (s : State) (f : Ident → Ident) : (s.onIdent f).ports = s.ports := rfl
@[simp] theorem State.onIdent_optics (s : State) (f : Ident → Ident) : (s.onIdent f).optics = s.optics := rfl
@[simp] theorem State.onIdent_req (s : State) (f : Ident → Ident) : (s.onIdent f).req = s.req := rfl
@[simp] theorem State.onIdent_pools (s : State) (f : Ident → Ident) : (s.onIdent f).pools = s.pools := rfl
@[simp] theorem State.onIdent_arrs (s : State) (f : Ident → Ident) : (s.onIdent f).arrs = s.arrs := rfl
@[simp] theorem State.onIdent_bents (s : State) (f : Ident → Ident) : (s.onIdent f).bents = s.bents := rfl
@[simp] theorem State.onIdent_atts (s : State) (f : Ident → Ident) : (s.onIdent f).atts = s.atts := rfl
@[simp] theorem State.onIdent_grads (s : State) (f : Ident → Ident) : (s.onIdent f).grads = s.grads := rfl
@[simp] theorem State.onIdent_folds (s : State) (f : Ident → Ident) : (s.onIdent f).folds = s.folds := rfl
@[simp] theorem State.onIdent_cals (s : State) (f : Ident → Ident) : (s.onIdent f).cals = s.cals := rfl
@[simp] theorem State.onIdent_owners (s : State) (f : Ident → Ident) : (s.onIdent f).owners = s.owners := rfl
@[simp] theorem State.onIdent_fab (s : State) (f : Ident → Ident) : (s.onIdent f).fab = s.fab := rfl
@[simp] theorem State.onIdent_snap (s : State) (f : Ident → Ident) : (s.onIdent f).snap = s.snap := rfl

@[simp] theorem State.onSnap_pending (s : State) (f : SnapSt → SnapSt) : (s.onSnap f).pending = s.pending := rfl
@[simp] theorem State.onSnap_variant (s : State) (f : SnapSt → SnapSt) : (s.onSnap f).variant = s.variant := rfl
@[simp] theorem State.onSnap_time (s : State) (f : SnapSt → SnapSt) : (s.onSnap f).time = s.time := rfl
@[simp] theorem State.onSnap_free (s : State) (f : SnapSt → SnapSt) : (s.onSnap f).free = s.free := rfl
@[simp] theorem State.onSnap_regs (s : State) (f : SnapSt → SnapSt) : (s.onSnap f).regs = s.regs := rfl
@[simp] theorem State.onSnap_sramFixed (s : State) (f : SnapSt → SnapSt) : (s.onSnap f).sramFixed = s.sramFixed := rfl
@[simp] theorem State.onSnap_sramWorn (s : State) (f : SnapSt → SnapSt) : (s.onSnap f).sramWorn = s.sramWorn := rfl
@[simp] theorem State.onSnap_out (s : State) (f : SnapSt → SnapSt) : (s.onSnap f).out = s.out := rfl
@[simp] theorem State.onSnap_sent (s : State) (f : SnapSt → SnapSt) : (s.onSnap f).sent = s.sent := rfl
@[simp] theorem State.onSnap_handles (s : State) (f : SnapSt → SnapSt) : (s.onSnap f).handles = s.handles := rfl
@[simp] theorem State.onSnap_mem (s : State) (f : SnapSt → SnapSt) : (s.onSnap f).mem = s.mem := rfl
@[simp] theorem State.onSnap_log (s : State) (f : SnapSt → SnapSt) : (s.onSnap f).log = s.log := rfl
@[simp] theorem State.onSnap_flash (s : State) (f : SnapSt → SnapSt) : (s.onSnap f).flash = s.flash := rfl
@[simp] theorem State.onSnap_ident (s : State) (f : SnapSt → SnapSt) : (s.onSnap f).ident = s.ident := rfl
@[simp] theorem State.onSnap_boot (s : State) (f : SnapSt → SnapSt) : (s.onSnap f).boot = s.boot := rfl
@[simp] theorem State.onSnap_pwr (s : State) (f : SnapSt → SnapSt) : (s.onSnap f).pwr = s.pwr := rfl
@[simp] theorem State.onSnap_wake (s : State) (f : SnapSt → SnapSt) : (s.onSnap f).wake = s.wake := rfl
@[simp] theorem State.onSnap_sensors (s : State) (f : SnapSt → SnapSt) : (s.onSnap f).sensors = s.sensors := rfl
@[simp] theorem State.onSnap_shut (s : State) (f : SnapSt → SnapSt) : (s.onSnap f).shut = s.shut := rfl
@[simp] theorem State.onSnap_que (s : State) (f : SnapSt → SnapSt) : (s.onSnap f).que = s.que := rfl
@[simp] theorem State.onSnap_syncs (s : State) (f : SnapSt → SnapSt) : (s.onSnap f).syncs = s.syncs := rfl
@[simp] theorem State.onSnap_ctxs (s : State) (f : SnapSt → SnapSt) : (s.onSnap f).ctxs = s.ctxs := rfl
@[simp] theorem State.onSnap_plans (s : State) (f : SnapSt → SnapSt) : (s.onSnap f).plans = s.plans := rfl
@[simp] theorem State.onSnap_gens (s : State) (f : SnapSt → SnapSt) : (s.onSnap f).gens = s.gens := rfl
@[simp] theorem State.onSnap_hashers (s : State) (f : SnapSt → SnapSt) : (s.onSnap f).hashers = s.hashers := rfl
@[simp] theorem State.onSnap_chans (s : State) (f : SnapSt → SnapSt) : (s.onSnap f).chans = s.chans := rfl
@[simp] theorem State.onSnap_ports (s : State) (f : SnapSt → SnapSt) : (s.onSnap f).ports = s.ports := rfl
@[simp] theorem State.onSnap_optics (s : State) (f : SnapSt → SnapSt) : (s.onSnap f).optics = s.optics := rfl
@[simp] theorem State.onSnap_req (s : State) (f : SnapSt → SnapSt) : (s.onSnap f).req = s.req := rfl
@[simp] theorem State.onSnap_pools (s : State) (f : SnapSt → SnapSt) : (s.onSnap f).pools = s.pools := rfl
@[simp] theorem State.onSnap_arrs (s : State) (f : SnapSt → SnapSt) : (s.onSnap f).arrs = s.arrs := rfl
@[simp] theorem State.onSnap_bents (s : State) (f : SnapSt → SnapSt) : (s.onSnap f).bents = s.bents := rfl
@[simp] theorem State.onSnap_atts (s : State) (f : SnapSt → SnapSt) : (s.onSnap f).atts = s.atts := rfl
@[simp] theorem State.onSnap_grads (s : State) (f : SnapSt → SnapSt) : (s.onSnap f).grads = s.grads := rfl
@[simp] theorem State.onSnap_folds (s : State) (f : SnapSt → SnapSt) : (s.onSnap f).folds = s.folds := rfl
@[simp] theorem State.onSnap_cals (s : State) (f : SnapSt → SnapSt) : (s.onSnap f).cals = s.cals := rfl
@[simp] theorem State.onSnap_owners (s : State) (f : SnapSt → SnapSt) : (s.onSnap f).owners = s.owners := rfl
@[simp] theorem State.onSnap_fab (s : State) (f : SnapSt → SnapSt) : (s.onSnap f).fab = s.fab := rfl

@[simp] theorem State.wr_pending (s : State) (p : Page) (o : Nat) (v : W32) : (s.wr p o v).pending = s.pending := rfl
@[simp] theorem State.wr_variant (s : State) (p : Page) (o : Nat) (v : W32) : (s.wr p o v).variant = s.variant := rfl
@[simp] theorem State.wr_time (s : State) (p : Page) (o : Nat) (v : W32) : (s.wr p o v).time = s.time := rfl
@[simp] theorem State.wr_free (s : State) (p : Page) (o : Nat) (v : W32) : (s.wr p o v).free = s.free := rfl
@[simp] theorem State.wr_sramFixed (s : State) (p : Page) (o : Nat) (v : W32) : (s.wr p o v).sramFixed = s.sramFixed := rfl
@[simp] theorem State.wr_sramWorn (s : State) (p : Page) (o : Nat) (v : W32) : (s.wr p o v).sramWorn = s.sramWorn := rfl
@[simp] theorem State.wr_out (s : State) (p : Page) (o : Nat) (v : W32) : (s.wr p o v).out = s.out := rfl
@[simp] theorem State.wr_sent (s : State) (p : Page) (o : Nat) (v : W32) : (s.wr p o v).sent = s.sent := rfl
@[simp] theorem State.wr_handles (s : State) (p : Page) (o : Nat) (v : W32) : (s.wr p o v).handles = s.handles := rfl
@[simp] theorem State.wr_mem (s : State) (p : Page) (o : Nat) (v : W32) : (s.wr p o v).mem = s.mem := rfl
@[simp] theorem State.wr_log (s : State) (p : Page) (o : Nat) (v : W32) : (s.wr p o v).log = s.log := rfl
@[simp] theorem State.wr_flash (s : State) (p : Page) (o : Nat) (v : W32) : (s.wr p o v).flash = s.flash := rfl
@[simp] theorem State.wr_ident (s : State) (p : Page) (o : Nat) (v : W32) : (s.wr p o v).ident = s.ident := rfl
@[simp] theorem State.wr_boot (s : State) (p : Page) (o : Nat) (v : W32) : (s.wr p o v).boot = s.boot := rfl
@[simp] theorem State.wr_pwr (s : State) (p : Page) (o : Nat) (v : W32) : (s.wr p o v).pwr = s.pwr := rfl
@[simp] theorem State.wr_wake (s : State) (p : Page) (o : Nat) (v : W32) : (s.wr p o v).wake = s.wake := rfl
@[simp] theorem State.wr_sensors (s : State) (p : Page) (o : Nat) (v : W32) : (s.wr p o v).sensors = s.sensors := rfl
@[simp] theorem State.wr_shut (s : State) (p : Page) (o : Nat) (v : W32) : (s.wr p o v).shut = s.shut := rfl
@[simp] theorem State.wr_que (s : State) (p : Page) (o : Nat) (v : W32) : (s.wr p o v).que = s.que := rfl
@[simp] theorem State.wr_syncs (s : State) (p : Page) (o : Nat) (v : W32) : (s.wr p o v).syncs = s.syncs := rfl
@[simp] theorem State.wr_ctxs (s : State) (p : Page) (o : Nat) (v : W32) : (s.wr p o v).ctxs = s.ctxs := rfl
@[simp] theorem State.wr_plans (s : State) (p : Page) (o : Nat) (v : W32) : (s.wr p o v).plans = s.plans := rfl
@[simp] theorem State.wr_gens (s : State) (p : Page) (o : Nat) (v : W32) : (s.wr p o v).gens = s.gens := rfl
@[simp] theorem State.wr_hashers (s : State) (p : Page) (o : Nat) (v : W32) : (s.wr p o v).hashers = s.hashers := rfl
@[simp] theorem State.wr_chans (s : State) (p : Page) (o : Nat) (v : W32) : (s.wr p o v).chans = s.chans := rfl
@[simp] theorem State.wr_ports (s : State) (p : Page) (o : Nat) (v : W32) : (s.wr p o v).ports = s.ports := rfl
@[simp] theorem State.wr_optics (s : State) (p : Page) (o : Nat) (v : W32) : (s.wr p o v).optics = s.optics := rfl
@[simp] theorem State.wr_req (s : State) (p : Page) (o : Nat) (v : W32) : (s.wr p o v).req = s.req := rfl
@[simp] theorem State.wr_pools (s : State) (p : Page) (o : Nat) (v : W32) : (s.wr p o v).pools = s.pools := rfl
@[simp] theorem State.wr_arrs (s : State) (p : Page) (o : Nat) (v : W32) : (s.wr p o v).arrs = s.arrs := rfl
@[simp] theorem State.wr_bents (s : State) (p : Page) (o : Nat) (v : W32) : (s.wr p o v).bents = s.bents := rfl
@[simp] theorem State.wr_atts (s : State) (p : Page) (o : Nat) (v : W32) : (s.wr p o v).atts = s.atts := rfl
@[simp] theorem State.wr_grads (s : State) (p : Page) (o : Nat) (v : W32) : (s.wr p o v).grads = s.grads := rfl
@[simp] theorem State.wr_folds (s : State) (p : Page) (o : Nat) (v : W32) : (s.wr p o v).folds = s.folds := rfl
@[simp] theorem State.wr_cals (s : State) (p : Page) (o : Nat) (v : W32) : (s.wr p o v).cals = s.cals := rfl
@[simp] theorem State.wr_owners (s : State) (p : Page) (o : Nat) (v : W32) : (s.wr p o v).owners = s.owners := rfl
@[simp] theorem State.wr_fab (s : State) (p : Page) (o : Nat) (v : W32) : (s.wr p o v).fab = s.fab := rfl
@[simp] theorem State.wr_snap (s : State) (p : Page) (o : Nat) (v : W32) : (s.wr p o v).snap = s.snap := rfl

@[simp] theorem State.answer_pending (s : State) (r : HostResp) : (s.answer r).pending = s.pending := rfl
@[simp] theorem State.answer_variant (s : State) (r : HostResp) : (s.answer r).variant = s.variant := rfl
@[simp] theorem State.answer_time (s : State) (r : HostResp) : (s.answer r).time = s.time := rfl
@[simp] theorem State.answer_free (s : State) (r : HostResp) : (s.answer r).free = s.free := rfl
@[simp] theorem State.answer_regs (s : State) (r : HostResp) : (s.answer r).regs = s.regs := rfl
@[simp] theorem State.answer_sramFixed (s : State) (r : HostResp) : (s.answer r).sramFixed = s.sramFixed := rfl
@[simp] theorem State.answer_sramWorn (s : State) (r : HostResp) : (s.answer r).sramWorn = s.sramWorn := rfl
@[simp] theorem State.answer_sent (s : State) (r : HostResp) : (s.answer r).sent = s.sent := rfl
@[simp] theorem State.answer_handles (s : State) (r : HostResp) : (s.answer r).handles = s.handles := rfl
@[simp] theorem State.answer_mem (s : State) (r : HostResp) : (s.answer r).mem = s.mem := rfl
@[simp] theorem State.answer_log (s : State) (r : HostResp) : (s.answer r).log = s.log := rfl
@[simp] theorem State.answer_flash (s : State) (r : HostResp) : (s.answer r).flash = s.flash := rfl
@[simp] theorem State.answer_ident (s : State) (r : HostResp) : (s.answer r).ident = s.ident := rfl
@[simp] theorem State.answer_boot (s : State) (r : HostResp) : (s.answer r).boot = s.boot := rfl
@[simp] theorem State.answer_pwr (s : State) (r : HostResp) : (s.answer r).pwr = s.pwr := rfl
@[simp] theorem State.answer_wake (s : State) (r : HostResp) : (s.answer r).wake = s.wake := rfl
@[simp] theorem State.answer_sensors (s : State) (r : HostResp) : (s.answer r).sensors = s.sensors := rfl
@[simp] theorem State.answer_shut (s : State) (r : HostResp) : (s.answer r).shut = s.shut := rfl
@[simp] theorem State.answer_que (s : State) (r : HostResp) : (s.answer r).que = s.que := rfl
@[simp] theorem State.answer_syncs (s : State) (r : HostResp) : (s.answer r).syncs = s.syncs := rfl
@[simp] theorem State.answer_ctxs (s : State) (r : HostResp) : (s.answer r).ctxs = s.ctxs := rfl
@[simp] theorem State.answer_plans (s : State) (r : HostResp) : (s.answer r).plans = s.plans := rfl
@[simp] theorem State.answer_gens (s : State) (r : HostResp) : (s.answer r).gens = s.gens := rfl
@[simp] theorem State.answer_hashers (s : State) (r : HostResp) : (s.answer r).hashers = s.hashers := rfl
@[simp] theorem State.answer_chans (s : State) (r : HostResp) : (s.answer r).chans = s.chans := rfl
@[simp] theorem State.answer_ports (s : State) (r : HostResp) : (s.answer r).ports = s.ports := rfl
@[simp] theorem State.answer_optics (s : State) (r : HostResp) : (s.answer r).optics = s.optics := rfl
@[simp] theorem State.answer_req (s : State) (r : HostResp) : (s.answer r).req = s.req := rfl
@[simp] theorem State.answer_pools (s : State) (r : HostResp) : (s.answer r).pools = s.pools := rfl
@[simp] theorem State.answer_arrs (s : State) (r : HostResp) : (s.answer r).arrs = s.arrs := rfl
@[simp] theorem State.answer_bents (s : State) (r : HostResp) : (s.answer r).bents = s.bents := rfl
@[simp] theorem State.answer_atts (s : State) (r : HostResp) : (s.answer r).atts = s.atts := rfl
@[simp] theorem State.answer_grads (s : State) (r : HostResp) : (s.answer r).grads = s.grads := rfl
@[simp] theorem State.answer_folds (s : State) (r : HostResp) : (s.answer r).folds = s.folds := rfl
@[simp] theorem State.answer_cals (s : State) (r : HostResp) : (s.answer r).cals = s.cals := rfl
@[simp] theorem State.answer_owners (s : State) (r : HostResp) : (s.answer r).owners = s.owners := rfl
@[simp] theorem State.answer_fab (s : State) (r : HostResp) : (s.answer r).fab = s.fab := rfl
@[simp] theorem State.answer_snap (s : State) (r : HostResp) : (s.answer r).snap = s.snap := rfl

@[simp] theorem State.monReply_pending (s : State) (l : List Nat) (c : Nat) : (s.monReply l c).pending = s.pending := rfl
@[simp] theorem State.monReply_variant (s : State) (l : List Nat) (c : Nat) : (s.monReply l c).variant = s.variant := rfl
@[simp] theorem State.monReply_time (s : State) (l : List Nat) (c : Nat) : (s.monReply l c).time = s.time := rfl
@[simp] theorem State.monReply_free (s : State) (l : List Nat) (c : Nat) : (s.monReply l c).free = s.free := rfl
@[simp] theorem State.monReply_regs (s : State) (l : List Nat) (c : Nat) : (s.monReply l c).regs = s.regs := rfl
@[simp] theorem State.monReply_sramFixed (s : State) (l : List Nat) (c : Nat) : (s.monReply l c).sramFixed = s.sramFixed := rfl
@[simp] theorem State.monReply_sramWorn (s : State) (l : List Nat) (c : Nat) : (s.monReply l c).sramWorn = s.sramWorn := rfl
@[simp] theorem State.monReply_sent (s : State) (l : List Nat) (c : Nat) : (s.monReply l c).sent = s.sent := rfl
@[simp] theorem State.monReply_handles (s : State) (l : List Nat) (c : Nat) : (s.monReply l c).handles = s.handles := rfl
@[simp] theorem State.monReply_mem (s : State) (l : List Nat) (c : Nat) : (s.monReply l c).mem = s.mem := rfl
@[simp] theorem State.monReply_log (s : State) (l : List Nat) (c : Nat) : (s.monReply l c).log = s.log := rfl
@[simp] theorem State.monReply_flash (s : State) (l : List Nat) (c : Nat) : (s.monReply l c).flash = s.flash := rfl
@[simp] theorem State.monReply_ident (s : State) (l : List Nat) (c : Nat) : (s.monReply l c).ident = s.ident := rfl
@[simp] theorem State.monReply_boot (s : State) (l : List Nat) (c : Nat) : (s.monReply l c).boot = s.boot := rfl
@[simp] theorem State.monReply_pwr (s : State) (l : List Nat) (c : Nat) : (s.monReply l c).pwr = s.pwr := rfl
@[simp] theorem State.monReply_wake (s : State) (l : List Nat) (c : Nat) : (s.monReply l c).wake = s.wake := rfl
@[simp] theorem State.monReply_sensors (s : State) (l : List Nat) (c : Nat) : (s.monReply l c).sensors = s.sensors := rfl
@[simp] theorem State.monReply_shut (s : State) (l : List Nat) (c : Nat) : (s.monReply l c).shut = s.shut := rfl
@[simp] theorem State.monReply_que (s : State) (l : List Nat) (c : Nat) : (s.monReply l c).que = s.que := rfl
@[simp] theorem State.monReply_syncs (s : State) (l : List Nat) (c : Nat) : (s.monReply l c).syncs = s.syncs := rfl
@[simp] theorem State.monReply_ctxs (s : State) (l : List Nat) (c : Nat) : (s.monReply l c).ctxs = s.ctxs := rfl
@[simp] theorem State.monReply_plans (s : State) (l : List Nat) (c : Nat) : (s.monReply l c).plans = s.plans := rfl
@[simp] theorem State.monReply_gens (s : State) (l : List Nat) (c : Nat) : (s.monReply l c).gens = s.gens := rfl
@[simp] theorem State.monReply_hashers (s : State) (l : List Nat) (c : Nat) : (s.monReply l c).hashers = s.hashers := rfl
@[simp] theorem State.monReply_chans (s : State) (l : List Nat) (c : Nat) : (s.monReply l c).chans = s.chans := rfl
@[simp] theorem State.monReply_ports (s : State) (l : List Nat) (c : Nat) : (s.monReply l c).ports = s.ports := rfl
@[simp] theorem State.monReply_optics (s : State) (l : List Nat) (c : Nat) : (s.monReply l c).optics = s.optics := rfl
@[simp] theorem State.monReply_req (s : State) (l : List Nat) (c : Nat) : (s.monReply l c).req = s.req := rfl
@[simp] theorem State.monReply_pools (s : State) (l : List Nat) (c : Nat) : (s.monReply l c).pools = s.pools := rfl
@[simp] theorem State.monReply_arrs (s : State) (l : List Nat) (c : Nat) : (s.monReply l c).arrs = s.arrs := rfl
@[simp] theorem State.monReply_bents (s : State) (l : List Nat) (c : Nat) : (s.monReply l c).bents = s.bents := rfl
@[simp] theorem State.monReply_atts (s : State) (l : List Nat) (c : Nat) : (s.monReply l c).atts = s.atts := rfl
@[simp] theorem State.monReply_grads (s : State) (l : List Nat) (c : Nat) : (s.monReply l c).grads = s.grads := rfl
@[simp] theorem State.monReply_folds (s : State) (l : List Nat) (c : Nat) : (s.monReply l c).folds = s.folds := rfl
@[simp] theorem State.monReply_cals (s : State) (l : List Nat) (c : Nat) : (s.monReply l c).cals = s.cals := rfl
@[simp] theorem State.monReply_owners (s : State) (l : List Nat) (c : Nat) : (s.monReply l c).owners = s.owners := rfl
@[simp] theorem State.monReply_fab (s : State) (l : List Nat) (c : Nat) : (s.monReply l c).fab = s.fab := rfl
@[simp] theorem State.monReply_snap (s : State) (l : List Nat) (c : Nat) : (s.monReply l c).snap = s.snap := rfl

@[simp] theorem State.push_variant (s : State) (c : Instr) : (s.push c).variant = s.variant := rfl
@[simp] theorem State.push_time (s : State) (c : Instr) : (s.push c).time = s.time := rfl
@[simp] theorem State.push_free (s : State) (c : Instr) : (s.push c).free = s.free := rfl
@[simp] theorem State.push_regs (s : State) (c : Instr) : (s.push c).regs = s.regs := rfl
@[simp] theorem State.push_sramFixed (s : State) (c : Instr) : (s.push c).sramFixed = s.sramFixed := rfl
@[simp] theorem State.push_sramWorn (s : State) (c : Instr) : (s.push c).sramWorn = s.sramWorn := rfl
@[simp] theorem State.push_out (s : State) (c : Instr) : (s.push c).out = s.out := rfl
@[simp] theorem State.push_sent (s : State) (c : Instr) : (s.push c).sent = s.sent := rfl
@[simp] theorem State.push_handles (s : State) (c : Instr) : (s.push c).handles = s.handles := rfl
@[simp] theorem State.push_mem (s : State) (c : Instr) : (s.push c).mem = s.mem := rfl
@[simp] theorem State.push_log (s : State) (c : Instr) : (s.push c).log = s.log := rfl
@[simp] theorem State.push_flash (s : State) (c : Instr) : (s.push c).flash = s.flash := rfl
@[simp] theorem State.push_ident (s : State) (c : Instr) : (s.push c).ident = s.ident := rfl
@[simp] theorem State.push_boot (s : State) (c : Instr) : (s.push c).boot = s.boot := rfl
@[simp] theorem State.push_pwr (s : State) (c : Instr) : (s.push c).pwr = s.pwr := rfl
@[simp] theorem State.push_wake (s : State) (c : Instr) : (s.push c).wake = s.wake := rfl
@[simp] theorem State.push_sensors (s : State) (c : Instr) : (s.push c).sensors = s.sensors := rfl
@[simp] theorem State.push_shut (s : State) (c : Instr) : (s.push c).shut = s.shut := rfl
@[simp] theorem State.push_que (s : State) (c : Instr) : (s.push c).que = s.que := rfl
@[simp] theorem State.push_syncs (s : State) (c : Instr) : (s.push c).syncs = s.syncs := rfl
@[simp] theorem State.push_ctxs (s : State) (c : Instr) : (s.push c).ctxs = s.ctxs := rfl
@[simp] theorem State.push_plans (s : State) (c : Instr) : (s.push c).plans = s.plans := rfl
@[simp] theorem State.push_gens (s : State) (c : Instr) : (s.push c).gens = s.gens := rfl
@[simp] theorem State.push_hashers (s : State) (c : Instr) : (s.push c).hashers = s.hashers := rfl
@[simp] theorem State.push_chans (s : State) (c : Instr) : (s.push c).chans = s.chans := rfl
@[simp] theorem State.push_ports (s : State) (c : Instr) : (s.push c).ports = s.ports := rfl
@[simp] theorem State.push_optics (s : State) (c : Instr) : (s.push c).optics = s.optics := rfl
@[simp] theorem State.push_req (s : State) (c : Instr) : (s.push c).req = s.req := rfl
@[simp] theorem State.push_pools (s : State) (c : Instr) : (s.push c).pools = s.pools := rfl
@[simp] theorem State.push_arrs (s : State) (c : Instr) : (s.push c).arrs = s.arrs := rfl
@[simp] theorem State.push_bents (s : State) (c : Instr) : (s.push c).bents = s.bents := rfl
@[simp] theorem State.push_atts (s : State) (c : Instr) : (s.push c).atts = s.atts := rfl
@[simp] theorem State.push_grads (s : State) (c : Instr) : (s.push c).grads = s.grads := rfl
@[simp] theorem State.push_folds (s : State) (c : Instr) : (s.push c).folds = s.folds := rfl
@[simp] theorem State.push_cals (s : State) (c : Instr) : (s.push c).cals = s.cals := rfl
@[simp] theorem State.push_owners (s : State) (c : Instr) : (s.push c).owners = s.owners := rfl
@[simp] theorem State.push_fab (s : State) (c : Instr) : (s.push c).fab = s.fab := rfl
@[simp] theorem State.push_snap (s : State) (c : Instr) : (s.push c).snap = s.snap := rfl

@[simp] theorem State.setReq_pending (s : State) (i : Nat) (x : Option ReqEnt) : (s.setReq i x).pending = s.pending := rfl
@[simp] theorem State.setReq_variant (s : State) (i : Nat) (x : Option ReqEnt) : (s.setReq i x).variant = s.variant := rfl
@[simp] theorem State.setReq_time (s : State) (i : Nat) (x : Option ReqEnt) : (s.setReq i x).time = s.time := rfl
@[simp] theorem State.setReq_free (s : State) (i : Nat) (x : Option ReqEnt) : (s.setReq i x).free = s.free := rfl
@[simp] theorem State.setReq_regs (s : State) (i : Nat) (x : Option ReqEnt) : (s.setReq i x).regs = s.regs := rfl
@[simp] theorem State.setReq_sramFixed (s : State) (i : Nat) (x : Option ReqEnt) : (s.setReq i x).sramFixed = s.sramFixed := rfl
@[simp] theorem State.setReq_sramWorn (s : State) (i : Nat) (x : Option ReqEnt) : (s.setReq i x).sramWorn = s.sramWorn := rfl
@[simp] theorem State.setReq_out (s : State) (i : Nat) (x : Option ReqEnt) : (s.setReq i x).out = s.out := rfl
@[simp] theorem State.setReq_sent (s : State) (i : Nat) (x : Option ReqEnt) : (s.setReq i x).sent = s.sent := rfl
@[simp] theorem State.setReq_handles (s : State) (i : Nat) (x : Option ReqEnt) : (s.setReq i x).handles = s.handles := rfl
@[simp] theorem State.setReq_mem (s : State) (i : Nat) (x : Option ReqEnt) : (s.setReq i x).mem = s.mem := rfl
@[simp] theorem State.setReq_log (s : State) (i : Nat) (x : Option ReqEnt) : (s.setReq i x).log = s.log := rfl
@[simp] theorem State.setReq_flash (s : State) (i : Nat) (x : Option ReqEnt) : (s.setReq i x).flash = s.flash := rfl
@[simp] theorem State.setReq_ident (s : State) (i : Nat) (x : Option ReqEnt) : (s.setReq i x).ident = s.ident := rfl
@[simp] theorem State.setReq_boot (s : State) (i : Nat) (x : Option ReqEnt) : (s.setReq i x).boot = s.boot := rfl
@[simp] theorem State.setReq_pwr (s : State) (i : Nat) (x : Option ReqEnt) : (s.setReq i x).pwr = s.pwr := rfl
@[simp] theorem State.setReq_wake (s : State) (i : Nat) (x : Option ReqEnt) : (s.setReq i x).wake = s.wake := rfl
@[simp] theorem State.setReq_sensors (s : State) (i : Nat) (x : Option ReqEnt) : (s.setReq i x).sensors = s.sensors := rfl
@[simp] theorem State.setReq_shut (s : State) (i : Nat) (x : Option ReqEnt) : (s.setReq i x).shut = s.shut := rfl
@[simp] theorem State.setReq_que (s : State) (i : Nat) (x : Option ReqEnt) : (s.setReq i x).que = s.que := rfl
@[simp] theorem State.setReq_syncs (s : State) (i : Nat) (x : Option ReqEnt) : (s.setReq i x).syncs = s.syncs := rfl
@[simp] theorem State.setReq_ctxs (s : State) (i : Nat) (x : Option ReqEnt) : (s.setReq i x).ctxs = s.ctxs := rfl
@[simp] theorem State.setReq_plans (s : State) (i : Nat) (x : Option ReqEnt) : (s.setReq i x).plans = s.plans := rfl
@[simp] theorem State.setReq_gens (s : State) (i : Nat) (x : Option ReqEnt) : (s.setReq i x).gens = s.gens := rfl
@[simp] theorem State.setReq_hashers (s : State) (i : Nat) (x : Option ReqEnt) : (s.setReq i x).hashers = s.hashers := rfl
@[simp] theorem State.setReq_chans (s : State) (i : Nat) (x : Option ReqEnt) : (s.setReq i x).chans = s.chans := rfl
@[simp] theorem State.setReq_ports (s : State) (i : Nat) (x : Option ReqEnt) : (s.setReq i x).ports = s.ports := rfl
@[simp] theorem State.setReq_optics (s : State) (i : Nat) (x : Option ReqEnt) : (s.setReq i x).optics = s.optics := rfl
@[simp] theorem State.setReq_pools (s : State) (i : Nat) (x : Option ReqEnt) : (s.setReq i x).pools = s.pools := rfl
@[simp] theorem State.setReq_arrs (s : State) (i : Nat) (x : Option ReqEnt) : (s.setReq i x).arrs = s.arrs := rfl
@[simp] theorem State.setReq_bents (s : State) (i : Nat) (x : Option ReqEnt) : (s.setReq i x).bents = s.bents := rfl
@[simp] theorem State.setReq_atts (s : State) (i : Nat) (x : Option ReqEnt) : (s.setReq i x).atts = s.atts := rfl
@[simp] theorem State.setReq_grads (s : State) (i : Nat) (x : Option ReqEnt) : (s.setReq i x).grads = s.grads := rfl
@[simp] theorem State.setReq_folds (s : State) (i : Nat) (x : Option ReqEnt) : (s.setReq i x).folds = s.folds := rfl
@[simp] theorem State.setReq_cals (s : State) (i : Nat) (x : Option ReqEnt) : (s.setReq i x).cals = s.cals := rfl
@[simp] theorem State.setReq_owners (s : State) (i : Nat) (x : Option ReqEnt) : (s.setReq i x).owners = s.owners := rfl
@[simp] theorem State.setReq_fab (s : State) (i : Nat) (x : Option ReqEnt) : (s.setReq i x).fab = s.fab := rfl
@[simp] theorem State.setReq_snap (s : State) (i : Nat) (x : Option ReqEnt) : (s.setReq i x).snap = s.snap := rfl

end Sys2Proof.Machine
end

