-- ==== Sys2Proof/Laws/Ops.lean ====
section
/-!
SUPPORT. What the shared operations can do, said once: the frame of register writes, interrupts, error latches and the event log,
and the situations in which the guards of commands let their effect through.
-/

set_option Elab.async false

namespace Sys2Proof.Machine

/-! ### Frames compose -/

theorem pagesOnly_refl (s : State) : pagesOnly s s := rfl

theorem pagesOnly_trans {s t u : State} (h : pagesOnly s t) (k : pagesOnly t u) : pagesOnly s u := by
  cases s; cases t; cases u
  simp only [pagesOnly, State.mk.injEq] at h k ⊢
  simp_all

theorem queueOnly_refl (s : State) : queueOnly s s := rfl

theorem queueOnly_trans {s t u : State} (h : queueOnly s t) (k : queueOnly t u) : queueOnly s u := by
  cases s; cases t; cases u
  simp only [queueOnly, State.mk.injEq] at h k ⊢
  simp_all

theorem queueOnly_of_pages {s t : State} (h : pagesOnly s t) : queueOnly s t := by
  cases s; cases t
  simp only [queueOnly, pagesOnly, State.mk.injEq] at h ⊢
  simp_all

/-! ### Registers, interrupts, the event log -/

theorem State.wr_frame (s : State) (p : Page) (o : Nat) (v : W32) : pagesOnly s (s.wr p o v) := rfl

theorem State.setFld_frame (s : State) (p : Page) (o hi lo v : Nat) : pagesOnly s (s.setFld p o hi lo v) := s.wr_frame p o _

theorem State.wr64_frame (s : State) (p : Page) (o v : Nat) : pagesOnly s (s.wr64 p o v) :=
  pagesOnly_trans (s.wr_frame p o _) (State.wr_frame _ p (o + 4) _)

theorem State.bumpN_frame (s : State) (p : Page) (o n : Nat) : pagesOnly s (s.bumpN p o n) := s.wr_frame p o _

theorem State.bump_frame (s : State) (p : Page) (o : Nat) : pagesOnly s (s.bump p o) := s.bumpN_frame p o 1

theorem State.add64_frame (s : State) (p : Page) (o n : Nat) : pagesOnly s (s.add64 p o n) := s.wr64_frame p o _

theorem State.sendMsix_frame (s : State) (d e : Nat) : pagesOnly s (s.sendMsix d e) := by
  unfold State.sendMsix; split <;> rfl

theorem riseFrom_frame (o s : State) (p : Page) : pagesOnly s (riseFrom o s p) := by
  unfold riseFrom; split
  · exact s.sendMsix_frame _ _
  · rfl

theorem State.raise_frame (s : State) (p : Page) (b : Nat) : pagesOnly s (s.raise p b) :=
  pagesOnly_trans (s.wr_frame p _ _) (riseFrom_frame _ _ _)

theorem State.logPush_frame (s : State) (r : LogRec) : pagesOnly s (s.logPush r) := by
  unfold State.logPush; split
  · rfl
  · refine pagesOnly_trans ?_ (State.raise_frame _ _ _)
    exact pagesOnly_trans (t := { s with log := { s.log with nextSeq := s.log.nextSeq + 1 }, free := s.free + 1 }) rfl
      (State.bump_frame _ _ _)

theorem State.logEvent_frame (s : State) (p : Page) (c : Nat) (v x : Option Nat) (d k a : Nat) :
    pagesOnly s (s.logEvent p c v x d k a) := s.logPush_frame _

/-- An error that a page detects touches registers, messages and the event log alone (R52). -/
theorem State.latchErrAs_frame (s : State) (v : Option Nat) (p : Page) (c : Nat) (x : Option Nat) (d a : Nat) :
    pagesOnly s (s.latchErrAs v p c x d a) := by
  unfold State.latchErrAs; split
  · exact pagesOnly_trans (s.setFld_frame _ _ _ _ _) (State.raise_frame _ _ _)
  · refine pagesOnly_trans (pagesOnly_trans ?_ (State.raise_frame _ _ _)) (State.logEvent_frame _ _ _ _ _ _ _ _)
    exact pagesOnly_trans (pagesOnly_trans (s.setFld_frame _ _ _ _ _) (State.wr_frame _ _ _ _)) (State.wr64_frame _ _ _ _)

theorem State.latchErr_frame (s : State) (p : Page) (c : Nat) (x : Option Nat) (d a : Nat) :
    pagesOnly s (s.latchErr p c x d a) := s.latchErrAs_frame _ _ _ _ _ _

theorem State.clearErr_frame (s : State) (p : Page) : pagesOnly s (s.clearErr p) :=
  pagesOnly_trans (pagesOnly_trans (s.wr_frame _ _ _) (State.wr_frame _ _ _ _)) (State.wr64_frame _ _ _ _)

theorem State.failOp_frame (s : State) (f : Flight) (c d : Nat) : queueOnly s (s.failOp f c d) :=
  queueOnly_trans (queueOnly_of_pages (s.latchErr_frame _ _ _ _ _)) rfl

/-! ### Words kept -/

theorem wordsKept_refl (s : State) (ws : List Nat) : wordsKept s s ws := fun _ _ _ => rfl

theorem wordsKept_trans {s t u : State} {ws : List Nat} (h : wordsKept s t ws) (k : wordsKept t u ws) : wordsKept s u ws :=
  fun i n d => (k i n d).trans (h i n d)

theorem wordsKept_mono {s t : State} {ws vs : List Nat} (h : wordsKept s t ws) (k : ∀ w, w ∈ ws → w ∈ vs) :
    wordsKept s t vs := fun i n d => h i (fun m => n (k i m)) d

/-- Register words that two states share are kept. -/
theorem wordsKept_of_regs {s t : State} (h : t.regs = s.regs) (ws : List Nat) : wordsKept s t ws :=
  fun _ _ _ => by rw [h]

@[simp] theorem State.rd_wr_self (s : State) (p : Page) (o : Nat) (v : W32) : (s.wr p o v).rd p o = v := look_put_self _ _ _ _

theorem State.rd_wr_other (s : State) {p p' : Page} {o o' : Nat} (v : W32) (h : p'.key o' ≠ p.key o) :
    (s.wr p o v).rd p' o' = s.rd p' o' := look_put_other _ _ _ _ h

theorem State.wr_kept (s : State) (p : Page) (o : Nat) (v : W32) : wordsKept s (s.wr p o v) [p.key o] :=
  fun k n d => look_put_other d _ _ _ (fun e => n (by simp [e]))

theorem State.setFld_kept (s : State) (p : Page) (o hi lo v : Nat) : wordsKept s (s.setFld p o hi lo v) [p.key o] :=
  s.wr_kept p o _

theorem State.bumpN_kept (s : State) (p : Page) (o n : Nat) : wordsKept s (s.bumpN p o n) [p.key o] := s.wr_kept p o _

theorem State.bump_kept (s : State) (p : Page) (o : Nat) : wordsKept s (s.bump p o) [p.key o] := s.wr_kept p o _

theorem State.wr64_kept (s : State) (p : Page) (o v : Nat) : wordsKept s (s.wr64 p o v) [p.key o, p.key (o + 4)] :=
  wordsKept_trans (wordsKept_mono (s.wr_kept p o _) (by simp)) (wordsKept_mono (State.wr_kept _ p (o + 4) _) (by simp))

theorem State.sendMsix_kept (s : State) (d e : Nat) : wordsKept s (s.sendMsix d e) [pbaKey d e] := by
  unfold State.sendMsix; split
  · exact fun k n c => look_put_other c _ _ _ (fun q => n (by simp [q]))
  · exact wordsKept_refl _ _

/-- Two words of one page have the same key only at the same word offset. -/
theorem regKey_word {d i w d' i' w' : Nat} (h : regKey d i w = regKey d' i' w') (a : w < 0x400) (b : w' < 0x400) : w = w' := by
  simp only [regKey] at h; omega

theorem State.fld_wr_other (s : State) {p p' : Page} {o o' : Nat} (v : W32) (hi lo : Nat) (h : p'.key o' ≠ p.key o) :
    (s.wr p o v).fld p' o' hi lo = s.fld p' o' hi lo := by unfold State.fld; rw [State.rd_wr_other _ _ h]

theorem key_ne {p p' : Page} {o o' : Nat} (h : o / 4 ≠ o' / 4) (a : o / 4 < 0x400) (b : o' / 4 < 0x400) :
    p.key o ≠ p'.key o' := fun e => h (regKey_word e a b)

theorem State.raise_kept (s : State) (p : Page) (b : Nat) : wordsKept s (s.raise p b) (irqWords s p) := by
  have e := s.fld_wr_other (s.rd p Reg.PAGE_IRQ_STAT ||| BitVec.ofNat 32 (2 ^ b)) 26 16
    (key_ne (p := p) (p' := p) (o := Reg.PAGE_CTRL) (o' := Reg.PAGE_IRQ_STAT) (by decide) (by decide) (by decide))
  have w : wordsKept s (s.wr p Reg.PAGE_IRQ_STAT (s.rd p Reg.PAGE_IRQ_STAT ||| BitVec.ofNat 32 (2 ^ b))) (irqWords s p) :=
    wordsKept_mono (s.wr_kept p _ _) (by intro w h; simp_all [irqWords])
  unfold State.raise riseFrom; split
  · refine wordsKept_trans w ?_
    unfold State.sendPage; rw [e]
    exact wordsKept_mono (State.sendMsix_kept _ _ _) (by intro w h; simp_all [irqWords])
  · exact w

/-- PAGE_CTRL of a page is not among words that keep to other offsets and other pages' pending bits. -/
theorem irqWords_congr {s t : State} {p : Page} (h : t.fld p Reg.PAGE_CTRL 26 16 = s.fld p Reg.PAGE_CTRL 26 16) :
    irqWords t p = irqWords s p := by simp [irqWords, h]

theorem State.fld_of_kept {s t : State} {ws : List Nat} (h : wordsKept s t ws) {p : Page} {o : Nat} (n : p.key o ∉ ws)
    (hi lo : Nat) : t.fld p o hi lo = s.fld p o hi lo := by
  unfold State.fld State.rd; rw [h _ n]

theorem State.rd_of_kept {s t : State} {ws : List Nat} (h : wordsKept s t ws) {p : Page} {o : Nat} (n : p.key o ∉ ws) :
    t.rd p o = s.rd p o := h _ n _

theorem bits_lt (x hi lo : Nat) : bits x hi lo < 2 ^ (hi + 1 - lo) := Nat.mod_lt _ (Nat.two_pow_pos _)

theorem logCtrl_not_pba {d e : Nat} (h : e < 2048) : (diePage .log 0).key Reg.PAGE_CTRL ≠ pbaKey d e := by
  have : (diePage .log 0).key Reg.PAGE_CTRL = 4098 := rfl
  rw [this]; simp only [pbaKey, regKey]; omega

/-- The PAGE_CTRL word of the event log's page is none of the words that an error on any page changes. -/
theorem logCtrl_not_err (s : State) (p : Page) : (diePage .log 0).key Reg.PAGE_CTRL ∉ errWords s p := by
  have b1 : s.fld p Reg.PAGE_CTRL 26 16 < 2048 := bits_lt _ 26 16
  have b2 : s.fld (diePage .log 0) Reg.PAGE_CTRL 26 16 < 2048 := bits_lt _ 26 16
  simp only [errWords, irqWords, List.mem_append, List.mem_cons, List.not_mem_nil, or_false, not_or]
  refine ⟨⟨⟨?_, ?_, ?_, ?_, ?_⟩, ?_, ?_⟩, ?_, ?_⟩
  · exact key_ne (by decide) (by decide) (by decide)
  · exact key_ne (by decide) (by decide) (by decide)
  · exact key_ne (by decide) (by decide) (by decide)
  · exact key_ne (by decide) (by decide) (by decide)
  · exact key_ne (by decide) (by decide) (by decide)
  · exact key_ne (by decide) (by decide) (by decide)
  rotate_left
  · exact key_ne (by decide) (by decide) (by decide)
  · exact logCtrl_not_pba b2
  · exact logCtrl_not_pba b1

theorem logCtrl_not_lost : (diePage .log 0).key Reg.PAGE_CTRL ∉ [(diePage .log 0).key Reg.LOG_LOST_COUNT] := by
  simp only [List.mem_singleton]
  exact key_ne (by decide) (by decide) (by decide)

theorem State.logPush_kept (s : State) (r : LogRec) :
    wordsKept s (s.logPush r) ((diePage .log 0).key Reg.LOG_LOST_COUNT :: irqWords s (diePage .log 0)) := by
  unfold State.logPush; split
  · exact wordsKept_of_regs rfl _
  · have k : wordsKept s (({ s with log := { s.log with nextSeq := s.log.nextSeq + 1 }, free := s.free + 1 } : State).bump
        (diePage .log 0) Reg.LOG_LOST_COUNT) [(diePage .log 0).key Reg.LOG_LOST_COUNT] :=
      State.bump_kept ({ s with log := { s.log with nextSeq := s.log.nextSeq + 1 }, free := s.free + 1 } : State) _ _
    refine wordsKept_trans (wordsKept_mono k (by simp)) (wordsKept_mono (State.raise_kept _ _ _) ?_)
    rw [irqWords_congr (State.fld_of_kept k logCtrl_not_lost 26 16)]
    intro w h; exact List.mem_cons_of_mem _ h

/-- An error that a page detects changes only the words of `errWords` (R52). -/
theorem State.latchErr_kept (s : State) (p : Page) (c : Nat) (x : Option Nat) (d a : Nat) :
    wordsKept s (s.latchErr p c x d a) (errWords s p) := by
  have sub : ∀ (t : State), t.fld p Reg.PAGE_CTRL 26 16 = s.fld p Reg.PAGE_CTRL 26 16 → ∀ w, w ∈ irqWords t p → w ∈ errWords s p := by
    intro t h w m; rw [irqWords_congr h] at m
    simp only [errWords, List.mem_append]; exact .inl (.inr m)
  have ctl : p.key Reg.PAGE_CTRL ∉ [p.key Reg.PAGE_ERR_CODE, p.key Reg.PAGE_ERR_INFO, p.key Reg.PAGE_ERR_ADDR,
      p.key (Reg.PAGE_ERR_ADDR + 4)] := by
    simp only [List.mem_cons, List.not_mem_nil, or_false, not_or]
    exact ⟨key_ne (by decide) (by decide) (by decide), key_ne (by decide) (by decide) (by decide),
      key_ne (by decide) (by decide) (by decide), key_ne (by decide) (by decide) (by decide)⟩
  have up : ∀ w, w ∈ [p.key Reg.PAGE_ERR_CODE, p.key Reg.PAGE_ERR_INFO, p.key Reg.PAGE_ERR_ADDR,
      p.key (Reg.PAGE_ERR_ADDR + 4)] → w ∈ errWords s p := by
    intro w h; simp only [errWords, List.mem_append, List.mem_cons, List.not_mem_nil, or_false] at h ⊢; grind
  unfold State.latchErr State.latchErrAs; split
  · have k := s.setFld_kept p Reg.PAGE_ERR_CODE 31 16 (min (s.fld p Reg.PAGE_ERR_CODE 31 16 + 1) 0xFFFF)
    have k4 := wordsKept_mono (vs := [p.key Reg.PAGE_ERR_CODE, p.key Reg.PAGE_ERR_INFO, p.key Reg.PAGE_ERR_ADDR,
      p.key (Reg.PAGE_ERR_ADDR + 4)]) k (by simp)
    exact wordsKept_trans (wordsKept_mono k4 up) (wordsKept_mono (State.raise_kept _ _ _) (sub _ (State.fld_of_kept k4 ctl 26 16)))
  · have k4 : wordsKept s (((s.setFld p Reg.PAGE_ERR_CODE 7 0 c).wr p Reg.PAGE_ERR_INFO (ctxWord x d)).wr64 p
        Reg.PAGE_ERR_ADDR a) [p.key Reg.PAGE_ERR_CODE, p.key Reg.PAGE_ERR_INFO, p.key Reg.PAGE_ERR_ADDR,
        p.key (Reg.PAGE_ERR_ADDR + 4)] :=
      wordsKept_trans (wordsKept_trans (wordsKept_mono (s.setFld_kept _ _ _ _ _) (by simp))
        (wordsKept_mono (State.wr_kept _ _ _ _) (by simp))) (wordsKept_mono (State.wr64_kept _ _ _ _) (by simp))
    have k5 := wordsKept_trans (wordsKept_mono k4 up)
      (wordsKept_mono (State.raise_kept _ p 0) (sub _ (State.fld_of_kept k4 ctl 26 16)))
    refine wordsKept_trans k5 (wordsKept_mono (State.logPush_kept _ _) ?_)
    rw [irqWords_congr (s := s) (State.fld_of_kept k5 (logCtrl_not_err s p) 26 16)]
    intro w h; simp only [errWords, List.mem_append, List.mem_cons, List.not_mem_nil, or_false] at h ⊢; grind

/-! ### Guards -/

theorem State.whenUp_of_up {s : State} (h : s.isUp) (f : State → State) : s.whenUp f = f s := by
  simp [State.whenUp, h.1, h.2]

theorem State.whenUp_of_down {s : State} (h : ¬ s.isUp) (f : State → State) : s.whenUp f = s := by
  simp only [State.isUp] at h
  simp only [State.whenUp, Bool.and_eq_true, Option.isNone_iff_eq_none]
  exact if_neg h

theorem State.runFlight_of_started {s : State} {q ix op : Nat} {f : Flight} (h : s.started q ix op f)
    (g : State → Flight → State) : s.runFlight q ix op g = g s f := by
  obtain ⟨u, e, p, o⟩ := h
  simp [State.runFlight, e, p, o, State.whenUp_of_up u]

/-- The queue and index of the flight that `flight` finds. -/
theorem State.flight_key {s : State} {q ix : Nat} {f : Flight} (h : s.flight q ix = some f) : f.q = q ∧ f.ix = ix := by
  have := List.find?_some h
  simp [isFlight] at this
  exact this

theorem find?_map_same {p : Flight → Bool} {g : Flight → Flight} (hp : ∀ f, p f = true → p (g f) = true) (l : List Flight) :
    (l.map (fun f => if p f then g f else f)).find? p = (l.find? p).map g := by
  induction l with
  | nil => rfl
  | cons a l ih =>
    by_cases h : p a = true
    · simp [h, hp a h]
    · simp [h, ih]

/-- A change of a flight that keeps its key is what `flight` finds afterwards. -/
theorem State.flight_onFlight (s : State) (q ix : Nat) (g : Flight → Flight)
    (hg : ∀ f, isFlight q ix f = true → isFlight q ix (g f) = true) :
    (s.onFlight q ix g).flight q ix = (s.flight q ix).map g := find?_map_same hg _

theorem State.flight_finish (s : State) (q ix a b c : Nat) : (s.finish q ix a b c).flight q ix =
    (s.flight q ix).map (fun f => { f with phase := .done, status := a, detail := b, result := c }) :=
  s.flight_onFlight q ix _ (fun _ h => h)

theorem State.flight_waitFlight (s : State) (q ix : Nat) :
    (s.waitFlight q ix).flight q ix = (s.flight q ix).map (fun f => { f with phase := .waiting }) :=
  s.flight_onFlight q ix _ (fun _ h => h)

/-- A finished flight has ended with what `finish` gave it. -/
theorem State.ended_finish {s : State} {q ix : Nat} {f : Flight} (h : s.flight q ix = some f) (a b c : Nat) :
    (s.finish q ix a b c).ended q ix a b c :=
  ⟨_, by rw [State.flight_finish, h]; rfl, rfl, rfl, rfl, rfl⟩

theorem State.awaits_waitFlight {s : State} {q ix : Nat} {f : Flight} (h : s.flight q ix = some f) :
    (s.waitFlight q ix).awaits q ix := ⟨_, by rw [State.flight_waitFlight, h]; rfl, rfl⟩

theorem State.wakeDemand_of_awake {s : State} {d : Nat} (h : (s.wakeOf d).state = 0) : s.wakeDemand d = s := by
  simp [State.wakeDemand, h]

/-- A page that takes writes lets the effect of a write through (Table 02-6). -/
theorem State.pageWrite_of_takes {s : State} {p : Page} (h : s.takesWrites p) (f : State → State) : s.pageWrite p f = f s := by
  obtain ⟨⟨r, n⟩, e, w, _⟩ := h
  have b : s.boot.phase = 3 := by simpa [State.ready] using r
  unfold State.pageWrite
  simp only [e, n, b, w, r, State.wakeDemand_of_awake w]
  simp

/-- So does it for the host, whose link reaches the page. -/
theorem State.hostPage_of_takes {s : State} {p : Page} (h : s.takesWrites p) (f : State → State) : s.hostPage p f = f s := by
  simp [State.hostPage, h.2.2.2, State.pageWrite_of_takes h f]

theorem State.onHost_of_reaches {s : State} {a : Nat} (h : s.hostReaches a) (f : State → State) : s.onHost a f = f s := by
  obtain ⟨⟨r, n⟩, m⟩ := h
  have b : s.boot.phase = 3 := by simpa [State.ready] using r
  simp [State.onHost, State.linkUp, n, b, m]

theorem State.whenOn_of_up {s : State} (h : s.isUp) (f : State → State) : s.whenOn f = f s := by
  have b : s.boot.phase = 3 := by simpa [State.ready] using h.1
  simp [State.whenOn, b]

end Sys2Proof.Machine
end

