-- ==== Sys2Proof/Laws/Memory.lean ====
section
/-!
SUPPORT. What the operations on T1 can do, said once: every read and write of T1 touches T1, register words, messages, the event
log and free values alone. `bare` forgets those parts, so that each law is one rewriting.
-/

namespace Sys2Proof.Machine

/-- A state without its register words, messages, event log, free values and T1. -/
def State.bare (s : State) : State :=
  { s with regs := [], out := Outputs.reset, log := EventLog.reset, free := 0, mem := Mem.reset }

theorem memOnly_iff {s t : State} : memOnly s t ↔ t.bare = s.bare := by
  cases s; cases t
  simp only [memOnly, State.bare, State.mk.injEq]

theorem memOnly_refl (s : State) : memOnly s s := rfl

theorem memOnly_trans {s t u : State} (h : memOnly s t) (k : memOnly t u) : memOnly s u :=
  memOnly_iff.2 ((memOnly_iff.1 k).trans (memOnly_iff.1 h))

theorem memOnly_of_pages {s t : State} (h : pagesOnly s t) : memOnly s t := by
  cases s; cases t
  simp only [memOnly, pagesOnly, State.mk.injEq] at h ⊢
  simp_all

theorem State.bare_of_pages {s t : State} (h : pagesOnly s t) : t.bare = s.bare := memOnly_iff.1 (memOnly_of_pages h)

@[simp] theorem State.bare_wr (s : State) (p : Page) (o : Nat) (v : W32) : (s.wr p o v).bare = s.bare :=
  State.bare_of_pages (s.wr_frame _ _ _)

@[simp] theorem State.bare_wr64 (s : State) (p : Page) (o v : Nat) : (s.wr64 p o v).bare = s.bare :=
  State.bare_of_pages (s.wr64_frame _ _ _)

@[simp] theorem State.bare_setFld (s : State) (p : Page) (o hi lo v : Nat) : (s.setFld p o hi lo v).bare = s.bare :=
  State.bare_of_pages (s.setFld_frame _ _ _ _ _)

@[simp] theorem State.bare_bumpN (s : State) (p : Page) (o n : Nat) : (s.bumpN p o n).bare = s.bare :=
  State.bare_of_pages (s.bumpN_frame _ _ _)

@[simp] theorem State.bare_bump (s : State) (p : Page) (o : Nat) : (s.bump p o).bare = s.bare :=
  State.bare_of_pages (s.bump_frame _ _)

@[simp] theorem State.bare_add64 (s : State) (p : Page) (o n : Nat) : (s.add64 p o n).bare = s.bare :=
  State.bare_of_pages (s.add64_frame _ _ _)

@[simp] theorem State.bare_sendMsix (s : State) (d e : Nat) : (s.sendMsix d e).bare = s.bare :=
  State.bare_of_pages (s.sendMsix_frame _ _)

@[simp] theorem State.bare_raise (s : State) (p : Page) (b : Nat) : (s.raise p b).bare = s.bare :=
  State.bare_of_pages (s.raise_frame _ _)

@[simp] theorem State.bare_logEvent (s : State) (p : Page) (c : Nat) (v x : Option Nat) (d k a : Nat) : (s.logEvent p c v x d k a).bare = s.bare :=
  State.bare_of_pages (s.logEvent_frame _ _ _ _ _ _ _)

@[simp] theorem State.bare_latchErr (s : State) (p : Page) (c : Nat) (x : Option Nat) (d a : Nat) : (s.latchErr p c x d a).bare = s.bare :=
  State.bare_of_pages (s.latchErr_frame _ _ _ _ _)

@[simp] theorem State.bare_clearErr (s : State) (p : Page) : (s.clearErr p).bare = s.bare :=
  State.bare_of_pages (s.clearErr_frame _)

@[simp] theorem State.bare_spend (s : State) : s.spend.bare = s.bare := by
  cases s; rfl

@[simp] theorem State.bare_onMem (s : State) (f : Mem → Mem) : (s.onMem f).bare = s.bare := by
  cases s; rfl

@[simp] theorem State.bare_listPoison (s : State) (c : Nat) : (s.listPoison c).bare = s.bare := by
  simp only [State.listPoison]
  (repeat' split) <;> simp

@[simp] theorem State.bare_unlistPoison (s : State) (c : Nat) : (s.unlistPoison c).bare = s.bare := by
  simp only [State.unlistPoison]
  (repeat' split) <;> simp

@[simp] theorem State.bare_startMapout (s : State) (c : Nat) : (s.startMapout c).bare = s.bare := by
  simp only [State.startMapout]
  (repeat' split) <;> simp

@[simp] theorem State.bare_startRegion (s : State) (a : Nat) : (s.startRegion a).bare = s.bare := by
  simp only [State.startRegion]
  (repeat' split) <;> simp

@[simp] theorem State.bare_countBurst (s : State) (a : Nat) : (s.countBurst a).bare = s.bare := by
  simp only [State.countBurst]
  (repeat' split) <;> simp

@[simp] theorem State.bare_correctCw (s : State) (b : Bool) (c p e : Nat) : (s.correctCw b c p e).bare = s.bare := by
  simp only [State.correctCw]
  (repeat' split) <;> simp

@[simp] theorem State.bare_badCw (s : State) (b k i : Bool) (c : Nat) : (s.badCw b k i c).bare = s.bare := by
  simp only [State.badCw]
  (repeat' split) <;> simp

@[simp] theorem State.bare_touchCw (s : State) (b : Bool) (k : Option Bool) (c : Nat) : (s.touchCw b k c).bare = s.bare := by
  simp only [State.touchCw]
  (repeat' split) <;> simp

@[simp] theorem State.bare_touchCws (s : State)  (l : List Nat) : (s.touchCws  l).bare = s.bare := by
  induction l generalizing s with
  | nil => rfl
  | cons c l ih => simp [State.touchCws, ih]

@[simp] theorem State.bare_writeCw (s : State) (a : Nat) (bs : Bytes) (c : Nat) : (s.writeCw a bs c).bare = s.bare := by
  simp only [State.writeCw]
  (repeat' split) <;> simp

@[simp] theorem State.bare_writeCws (s : State) (a : Nat) (bs : Bytes) (l : List Nat) : (s.writeCws a bs l).bare = s.bare := by
  induction l generalizing s with
  | nil => rfl
  | cons c l ih => simp [State.writeCws, ih]

@[simp] theorem State.bare_writeBytes (s : State) (a : Nat) (bs : Bytes) : (s.writeBytes a bs).bare = s.bare := by
  simp [State.writeBytes]

/-- A host write touches T1 and what its reads of codewords raise (R419, R426). -/
@[simp] theorem State.bare_hostWrite (s : State) (a : Nat) (bs : Bytes) : (s.hostWrite a bs).bare = s.bare := by
  simp [State.hostWrite]

@[simp] theorem State.bare_crcFailed (s : State) (d : Nat) (b : Bool) (x a c : Nat) (w : W64) : (s.crcFailed d b x a c w).bare = s.bare := by
  simp [State.crcFailed]

@[simp] theorem State.bare_crcTwice (s : State) (d x a c : Nat) (w : W64) : (s.crcTwice d x a c w).bare = s.bare := by
  simp [State.crcTwice]

@[simp] theorem State.bare_checkBlk (s : State) (b : Nat) : (s.checkBlk b).2.bare = s.bare := by
  simp only [State.checkBlk]
  (repeat' split) <;> simp

@[simp] theorem State.bare_readBlk (s : State) (a n b : Nat) : (s.readBlk a n b).2.bare = s.bare := by
  simp only [State.readBlk]
  (repeat' split) <;> simp

@[simp] theorem State.bare_readBlks (s : State) (a n : Nat) (l : List Nat) : (s.readBlks a n l).2.bare = s.bare := by
  induction l generalizing s with
  | nil => rfl
  | cons c l ih => simp [State.readBlks, ih]

/-- A unit's read touches T1 only as corrections do (R420, R427). -/
@[simp] theorem State.bare_unitRead (s : State) (a n : Nat) : (s.unitRead a n).2.bare = s.bare := by
  simp [State.unitRead]

@[simp] theorem State.bare_unitWriteBlk (s : State) (a : Nat) (bs : Bytes) (g p f b : Nat) : (s.unitWriteBlk a bs g p f b).bare = s.bare := by
  simp only [State.unitWriteBlk]
  (repeat' split) <;> simp

@[simp] theorem State.bare_unitWriteBlks (s : State) (a : Nat) (bs : Bytes) (g p f : Nat) (l : List Nat) : (s.unitWriteBlks a bs g p f l).bare = s.bare := by
  induction l generalizing s with
  | nil => rfl
  | cons c l ih => simp [State.unitWriteBlks, ih]

/-- A unit's write touches T1 and what its reads raise (R426). -/
@[simp] theorem State.bare_unitWrite (s : State) (a : Nat) (bs : Bytes) (g p f : Nat) : (s.unitWrite a bs g p f).bare = s.bare := by
  simp [State.unitWrite]

@[simp] theorem State.bare_moveBlk (s : State) (a b : Nat) : (s.moveBlk a b).2.bare = s.bare := by
  simp only [State.moveBlk]
  (repeat' split) <;> simp

@[simp] theorem State.bare_moveBlks (s : State) (a b n : Nat) : (s.moveBlks a b n).2.bare = s.bare := by
  induction n generalizing s a b with
  | zero => rfl
  | succ n ih => simp [State.moveBlks, ih]

/-- A control record's write touches T1 and what its reads raise (R340). -/
@[simp] theorem State.bare_writeCtrl (s : State) (h c i : Nat) : (s.writeCtrl h c i).bare = s.bare := by
  simp only [State.writeCtrl]
  (repeat' split) <;> simp

/-- A clean codeword reads without effect. -/
theorem State.touchCw_clean {s : State} {c : Nat} (h : s.mem.synd c = 0) (b : Bool) (k : Option Bool) : s.touchCw b k c = s := by
  simp [State.touchCw, h, classify]

/-- What `bare` keeps. -/
theorem State.que_of_bare {s t : State} (h : t.bare = s.bare) : t.que = s.que :=
  (congrArg State.que h : t.bare.que = s.bare.que)

theorem State.syncs_of_bare {s t : State} (h : t.bare = s.bare) : t.syncs = s.syncs :=
  (congrArg State.syncs h : t.bare.syncs = s.bare.syncs)

theorem State.handles_of_bare {s t : State} (h : t.bare = s.bare) : t.handles = s.handles :=
  (congrArg State.handles h : t.bare.handles = s.bare.handles)

theorem State.ctxs_of_bare {s t : State} (h : t.bare = s.bare) : t.ctxs = s.ctxs :=
  (congrArg State.ctxs h : t.bare.ctxs = s.bare.ctxs)

theorem State.plans_of_bare {s t : State} (h : t.bare = s.bare) : t.plans = s.plans :=
  (congrArg State.plans h : t.bare.plans = s.bare.plans)

theorem State.gens_of_bare {s t : State} (h : t.bare = s.bare) : t.gens = s.gens :=
  (congrArg State.gens h : t.bare.gens = s.bare.gens)

theorem State.chans_of_bare {s t : State} (h : t.bare = s.bare) : t.chans = s.chans :=
  (congrArg State.chans h : t.bare.chans = s.bare.chans)

theorem State.ports_of_bare {s t : State} (h : t.bare = s.bare) : t.ports = s.ports :=
  (congrArg State.ports h : t.bare.ports = s.bare.ports)

theorem State.optics_of_bare {s t : State} (h : t.bare = s.bare) : t.optics = s.optics :=
  (congrArg State.optics h : t.bare.optics = s.bare.optics)

theorem State.req_of_bare {s t : State} (h : t.bare = s.bare) : t.req = s.req :=
  (congrArg State.req h : t.bare.req = s.bare.req)

theorem State.pools_of_bare {s t : State} (h : t.bare = s.bare) : t.pools = s.pools :=
  (congrArg State.pools h : t.bare.pools = s.bare.pools)

theorem State.arrs_of_bare {s t : State} (h : t.bare = s.bare) : t.arrs = s.arrs :=
  (congrArg State.arrs h : t.bare.arrs = s.bare.arrs)

theorem State.bents_of_bare {s t : State} (h : t.bare = s.bare) : t.bents = s.bents :=
  (congrArg State.bents h : t.bare.bents = s.bare.bents)

theorem State.atts_of_bare {s t : State} (h : t.bare = s.bare) : t.atts = s.atts :=
  (congrArg State.atts h : t.bare.atts = s.bare.atts)

theorem State.grads_of_bare {s t : State} (h : t.bare = s.bare) : t.grads = s.grads :=
  (congrArg State.grads h : t.bare.grads = s.bare.grads)

theorem State.folds_of_bare {s t : State} (h : t.bare = s.bare) : t.folds = s.folds :=
  (congrArg State.folds h : t.bare.folds = s.bare.folds)

theorem State.cals_of_bare {s t : State} (h : t.bare = s.bare) : t.cals = s.cals :=
  (congrArg State.cals h : t.bare.cals = s.bare.cals)

theorem State.owners_of_bare {s t : State} (h : t.bare = s.bare) : t.owners = s.owners :=
  (congrArg State.owners h : t.bare.owners = s.bare.owners)

theorem State.fab_of_bare {s t : State} (h : t.bare = s.bare) : t.fab = s.fab :=
  (congrArg State.fab h : t.bare.fab = s.bare.fab)

theorem State.snap_of_bare {s t : State} (h : t.bare = s.bare) : t.snap = s.snap :=
  (congrArg State.snap h : t.bare.snap = s.bare.snap)

theorem State.pending_of_bare {s t : State} (h : t.bare = s.bare) : t.pending = s.pending :=
  (congrArg State.pending h : t.bare.pending = s.bare.pending)

theorem State.variant_of_bare {s t : State} (h : t.bare = s.bare) : t.variant = s.variant :=
  (congrArg State.variant h : t.bare.variant = s.bare.variant)

theorem State.time_of_bare {s t : State} (h : t.bare = s.bare) : t.time = s.time :=
  (congrArg State.time h : t.bare.time = s.bare.time)

theorem State.sramFixed_of_bare {s t : State} (h : t.bare = s.bare) : t.sramFixed = s.sramFixed :=
  (congrArg State.sramFixed h : t.bare.sramFixed = s.bare.sramFixed)

theorem State.sramWorn_of_bare {s t : State} (h : t.bare = s.bare) : t.sramWorn = s.sramWorn :=
  (congrArg State.sramWorn h : t.bare.sramWorn = s.bare.sramWorn)

theorem State.sent_of_bare {s t : State} (h : t.bare = s.bare) : t.sent = s.sent :=
  (congrArg State.sent h : t.bare.sent = s.bare.sent)

theorem State.flash_of_bare {s t : State} (h : t.bare = s.bare) : t.flash = s.flash :=
  (congrArg State.flash h : t.bare.flash = s.bare.flash)

theorem State.ident_of_bare {s t : State} (h : t.bare = s.bare) : t.ident = s.ident :=
  (congrArg State.ident h : t.bare.ident = s.bare.ident)

theorem State.boot_of_bare {s t : State} (h : t.bare = s.bare) : t.boot = s.boot :=
  (congrArg State.boot h : t.bare.boot = s.bare.boot)

theorem State.pwr_of_bare {s t : State} (h : t.bare = s.bare) : t.pwr = s.pwr :=
  (congrArg State.pwr h : t.bare.pwr = s.bare.pwr)

theorem State.wake_of_bare {s t : State} (h : t.bare = s.bare) : t.wake = s.wake :=
  (congrArg State.wake h : t.bare.wake = s.bare.wake)

theorem State.sensors_of_bare {s t : State} (h : t.bare = s.bare) : t.sensors = s.sensors :=
  (congrArg State.sensors h : t.bare.sensors = s.bare.sensors)

theorem State.shut_of_bare {s t : State} (h : t.bare = s.bare) : t.shut = s.shut :=
  (congrArg State.shut h : t.bare.shut = s.bare.shut)

theorem State.hashers_of_bare {s t : State} (h : t.bare = s.bare) : t.hashers = s.hashers :=
  (congrArg State.hashers h : t.bare.hashers = s.bare.hashers)

end Sys2Proof.Machine
end

