-- ==== Sys2Proof/WellFormed.lean ====
section
/-!
DEFINITION. What it takes for a command to be one that the outside world can bring: every number within the width or the
count that the spec gives what it names (Tables 00-1, 02-4, 02-5, 02-25).
-/

namespace Sys2Proof

/-- A page names a frame die, one of at most 128 units and one of at most 4 arrays (Tables 02-4 and 02-5). -/
def Page.wf (p : Page) : Bool := decide (p.die < 4) && decide (p.unit < 128) && decide (p.sub < 4)

/-- Fields of an Ahnaz packet within their widths (Tables 15-5 and 15-6). -/
def Pkt.wf (p : Pkt) : Bool :=
  decide (p.vc < 8) && decide (p.grantVc < 8) && decide (p.kind < 8) && decide (p.dst < 2 ^ 16) && decide (p.src < 2 ^ 16) &&
    decide (p.seq < 2 ^ 32) && decide (p.ack < 2 ^ 32) && decide (p.grant < 2 ^ 32) && decide (p.data.length ≤ 8192)

/-- Arrays, ring ports and pages that the operands of a command name. -/
def LoadEnd.wf (x : LoadEnd) : Bool := decide (x.arr < 4)
def SeenAt.wf (x : SeenAt) : Bool := decide (x.t < 2 ^ 64)
def RingAt.wf (x : RingAt) : Bool := decide (x.port < 32)
def MarkerAt.wf (x : MarkerAt) : Bool := x.page.wf

/-- Is a command well formed? -/
def Instr.wf (i : Instr) : Bool :=
  match i with
  | .nop q ix => decide (q < 32768) && decide (ix < 2 ^ 32)
  | .syncAdd q ix => decide (q < 32768) && decide (ix < 2 ^ 32)
  | .syncSet q ix => decide (q < 32768) && decide (ix < 2 ^ 32)
  | .syncWait q seen => decide (q < 32768) && seen.wf
  | .syncCreate q ix => decide (q < 32768) && decide (ix < 2 ^ 32)
  | .syncDestroy q ix => decide (q < 32768) && decide (ix < 2 ^ 32)
  | .queueCreate q ix => decide (q < 32768) && decide (ix < 2 ^ 32)
  | .queueDestroy q ix => decide (q < 32768) && decide (ix < 2 ^ 32)
  | .contextCreate q ix => decide (q < 32768) && decide (ix < 2 ^ 32)
  | .contextDestroy q ix => decide (q < 32768) && decide (ix < 2 ^ 32)
  | .bentAssign q ix => decide (q < 32768) && decide (ix < 2 ^ 32)
  | .bentClear q ix => decide (q < 32768) && decide (ix < 2 ^ 32)
  | .planLoad q ix => decide (q < 32768) && decide (ix < 2 ^ 32)
  | .planUnload q ix => decide (q < 32768) && decide (ix < 2 ^ 32)
  | .planRun q ix => decide (q < 32768) && decide (ix < 2 ^ 32)
  | .planStop q ix => decide (q < 32768) && decide (ix < 2 ^ 32)
  | .weightLoad q ix => decide (q < 32768) && decide (ix < 2 ^ 32)
  | .copy q ix => decide (q < 32768) && decide (ix < 2 ^ 32)
  | .reqAdmit q ix => decide (q < 32768) && decide (ix < 2 ^ 32)
  | .reqCancel q ix => decide (q < 32768) && decide (ix < 2 ^ 32)
  | .reqPause q ix => decide (q < 32768) && decide (ix < 2 ^ 32)
  | .reqResume q ix => decide (q < 32768) && decide (ix < 2 ^ 32)
  | .reqSet q ix => decide (q < 32768) && decide (ix < 2 ^ 32)
  | .reqDraft q ix => decide (q < 32768) && decide (ix < 2 ^ 32)
  | .reqRelease q ix => decide (q < 32768) && decide (ix < 2 ^ 32)
  | .reqQuery q ix => decide (q < 32768) && decide (ix < 2 ^ 32)
  | .wgtKeyExport q ix => decide (q < 32768) && decide (ix < 2 ^ 32)
  | .wgtRegister q ix => decide (q < 32768) && decide (ix < 2 ^ 32)
  | .wgtSeal q ix => decide (q < 32768) && decide (ix < 2 ^ 32)
  | .wgtVerify q ix => decide (q < 32768) && decide (ix < 2 ^ 32)
  | .tpChannelCreate q ix => decide (q < 32768) && decide (ix < 2 ^ 32)
  | .tpChannelDestroy q ix => decide (q < 32768) && decide (ix < 2 ^ 32)
  | .tpWrite q ix => decide (q < 32768) && decide (ix < 2 ^ 32)
  | .tpRead q ix => decide (q < 32768) && decide (ix < 2 ^ 32)
  | .queDoorbell _ => true
  | .descriptorConsume q t _ => decide (q < 32768) && decide (t < 2 ^ 64)
  | .descriptorComplete q ix t => decide (q < 32768) && decide (ix < 2 ^ 32) && decide (t < 2 ^ 64)
  | .syncWaitDeadline q t => decide (q < 32768) && decide (t < 2 ^ 64)
  | .errLogClear p => p.wf
  | .pageIrqStatWrite p _ => p.wf
  | .msixUnmask die entry => decide (die < 4) && decide (entry < 2048)
  | .rcCounterRead _ _ => true
  | .reqEntryRead => true
  | .registerWrite _ _ _ => true
  | .ledgerHostWrite die bent _ _ => decide (die < 4) && decide (bent < 128)
  | .arrRetire die bent arr => decide (die < 4) && decide (bent < 128) && decide (arr < 4)
  | .recal die bent => decide (die < 4) && decide (bent < 128)
  | .kvpCensus die => decide (die < 4)
  | .reqCensus => true
  | .portCensus port => decide (port < 32)
  | .portRetrain port => decide (port < 32)
  | .portClearRetired port => decide (port < 32)
  | .knotReissue => true
  | .knotCancelReissue => true
  | .shareWrite die _ _ => decide (die < 4)
  | .planEscAdd die => decide (die < 4)
  | .planEscRemove die => decide (die < 4)
  | .adminQueueEnable msix => decide (msix < 65536)
  | .adminQueueDisable => true
  | .syncHostRead => true
  | .syncHostAdd => true
  | .syncHostSet => true
  | .pwrWake die => decide (die < 4)
  | .pwrWakeLatWrite die _ => decide (die < 4)
  | .thmTripAck die _ => decide (die < 4)
  | .memInject die kind => decide (die < 4) && decide (kind < 4)
  | .secUpdate type => decide (type < 4)
  | .secAttest => true
  | .snapRequest _ => true
  | .consAudit => true
  | .consResume => true
  | .hostMemRead _ _ => true
  | .hostMemWrite _ _ => true
  | .identifyMemoryDevice die => decide (die < 4)
  | .getPartitionInfo die => decide (die < 4)
  | .getHealthInfo die => decide (die < 4)
  | .getPoisonList die => decide (die < 4)
  | .mailboxUnsupported die _ => decide (die < 4)
  | .monPeek _ _ => true
  | .monPoke _ _ _ => true
  | .monDump _ => true
  | .monSnap _ => true
  | .monTemp die => (die.all (fun d => d < 4))
  | .monLog _ => true
  | .monKnots => true
  | .monCal die bent => decide (die < 4) && decide (bent < 128)
  | .monLink port => (port.all (fun p => p < 32))
  | .monCensus => true
  | .monAudit => true
  | .monResume => true
  | .monBaud _ => true
  | .monId => true
  | .monRestart _ => true
  | .monitorBreak => true
  | .romRecoveryImage _ => true
  | .powerOn _ => true
  | .bootStepEnd _ => true
  | .inputWarn _ t => decide (t < 2 ^ 64)
  | .voltageShutdown _ _ t => decide (t < 2 ^ 64)
  | .standbyLoss => true
  | .powerSample _ _ t => decide (t < 2 ^ 64)
  | .powerDemandStep _ t => decide (t < 2 ^ 64)
  | .sensorRead _ t => decide (t < 2 ^ 64)
  | .sensorCrossCheck t => decide (t < 2 ^ 64)
  | .thermalDemandStep t => decide (t < 2 ^ 64)
  | .shutdownStage t => decide (t < 2 ^ 64)
  | .coolantWarn _ _ t => decide (t < 2 ^ 64)
  | .wakeStateEntry die t => decide (die < 4) && decide (t < 2 ^ 64)
  | .wakeStart die t => decide (die < 4) && decide (t < 2 ^ 64)
  | .wakeComplete die t => decide (die < 4) && decide (t < 2 ^ 64)
  | .lightLoss engine _ => decide (engine < 16)
  | .lightReturn engine _ => decide (engine < 16)
  | .portTrainingComplete port => decide (port < 32)
  | .laneLockLoss port lane => decide (port < 32) && decide (lane < 8)
  | .laneErrorWindow port _ _ => decide (port < 32)
  | .hostLinkModuleLoss die module => decide (die < 4) && decide (module < 4)
  | .bridgeModuleLoss die module => decide (die < 4) && decide (module < 6)
  | .routerSlotEntry die bent _ _ => decide (die < 4) && decide (bent < 128)
  | .fabricStall die bent port t => decide (die < 4) && decide (bent < 128) && decide (port < 6) && decide (t < 2 ^ 64)
  | .fabricResume t => decide (t < 2 ^ 64)
  | .segmentQuantise die bent arr _ _ _ _ => decide (die < 4) && decide (bent < 128) && decide (arr < 4)
  | .forwardPass die bent arr _ _ => decide (die < 4) && decide (bent < 128) && decide (arr < 4)
  | .transposedPass die bent arr _ => decide (die < 4) && decide (bent < 128) && decide (arr < 4)
  | .reserveBeat die bent arr _ => decide (die < 4) && decide (bent < 128) && decide (arr < 4)
  | .checkVerdict die bent arr => decide (die < 4) && decide (bent < 128) && decide (arr < 4)
  | .passEventSettle die bent arr t => decide (die < 4) && decide (bent < 128) && decide (arr < 4) && decide (t < 2 ^ 64)
  | .escalationWindowEnd die bent arr => decide (die < 4) && decide (bent < 128) && decide (arr < 4)
  | .partialWrite die bent arr => decide (die < 4) && decide (bent < 128) && decide (arr < 4)
  | .openZero die bent _ => decide (die < 4) && decide (bent < 128)
  | .openLoad die bent _ _ _ _ => decide (die < 4) && decide (bent < 128)
  | .addIn die bent _ _ _ => decide (die < 4) && decide (bent < 128)
  | .ledgerRead die bent _ _ => decide (die < 4) && decide (bent < 128)
  | .ledgerStore die bent _ => decide (die < 4) && decide (bent < 128)
  | .ledgerClose die bent _ => decide (die < 4) && decide (bent < 128)
  | .vecNop die bent _ _ => decide (die < 4) && decide (bent < 128)
  | .vecAdd die bent _ _ => decide (die < 4) && decide (bent < 128)
  | .vecSub die bent _ _ => decide (die < 4) && decide (bent < 128)
  | .vecMul die bent _ _ => decide (die < 4) && decide (bent < 128)
  | .vecFma die bent _ _ => decide (die < 4) && decide (bent < 128)
  | .vecScale die bent _ _ => decide (die < 4) && decide (bent < 128)
  | .vecRowscale die bent _ _ => decide (die < 4) && decide (bent < 128)
  | .vecSilu die bent _ _ => decide (die < 4) && decide (bent < 128)
  | .vecGelu die bent _ _ => decide (die < 4) && decide (bent < 128)
  | .vecSwiglu die bent _ _ => decide (die < 4) && decide (bent < 128)
  | .vecExp die bent _ _ => decide (die < 4) && decide (bent < 128)
  | .vecRecip die bent _ _ => decide (die < 4) && decide (bent < 128)
  | .vecRsqrt die bent _ _ => decide (die < 4) && decide (bent < 128)
  | .vecAttRescale die bent _ _ _ => decide (die < 4) && decide (bent < 128)
  | .vecConvert die bent _ _ => decide (die < 4) && decide (bent < 128)
  | .vecSum die bent _ _ => decide (die < 4) && decide (bent < 128)
  | .vecSumsq die bent _ _ => decide (die < 4) && decide (bent < 128)
  | .vecMeanvar die bent _ _ => decide (die < 4) && decide (bent < 128)
  | .vecMax die bent _ _ => decide (die < 4) && decide (bent < 128)
  | .vecMin die bent _ _ => decide (die < 4) && decide (bent < 128)
  | .vecAbsmax die bent _ _ => decide (die < 4) && decide (bent < 128)
  | .vecDot die bent _ _ => decide (die < 4) && decide (bent < 128)
  | .vecMerge die bent _ _ => decide (die < 4) && decide (bent < 128)
  | .vecAdamw die bent _ _ => decide (die < 4) && decide (bent < 128)
  | .vecRepackCol die bent _ _ => decide (die < 4) && decide (bent < 128)
  | .vecPack die bent _ _ => decide (die < 4) && decide (bent < 128)
  | .vecMxReblock die bent _ _ => decide (die < 4) && decide (bent < 128)
  | .windowOpen die engine _ => decide (die < 4) && decide (engine < 16)
  | .takeQuery die engine _ _ => decide (die < 4) && decide (engine < 16)
  | .takeFresh die engine _ _ => decide (die < 4) && decide (engine < 16)
  | .windowClose die engine _ _ t => decide (die < 4) && decide (engine < 16) && decide (t < 2 ^ 64)
  | .attSend die engine _ => decide (die < 4) && decide (engine < 16)
  | .gradAccumulate die gunit _ _ => decide (die < 4) && decide (gunit < 16)
  | .gradFlushComplete die gunit => decide (die < 4) && decide (gunit < 16)
  | .gradFoldComplete die gunit tile => decide (die < 4) && decide (gunit < 16) && decide (tile < 2 ^ 24)
  | .weightFeedLoad ctx die _ _ => decide (ctx < 1024) && decide (die < 4)
  | .planeLoadComplete die bent x => decide (die < 4) && decide (bent < 128) && x.wf
  | .planeDrainEnd die bent arr => decide (die < 4) && decide (bent < 128) && decide (arr < 4)
  | .ringPortRead ctx die port _ _ _ => decide (ctx < 1024) && decide (die < 4) && decide (port < 32)
  | .ringPortWrite ctx die port _ _ => decide (ctx < 1024) && decide (die < 4) && decide (port < 32)
  | .kvEntryWrite die req layer _ ring => decide (die < 4) && decide (req < 65536) && decide (layer < 1024) && ring.wf
  | .gateArrival ctx _ t => decide (ctx < 1024) && decide (t < 2 ^ 64)
  | .gateRelease ctx _ seen => decide (ctx < 1024) && seen.wf
  | .gateDeadline ctx t => decide (ctx < 1024) && decide (t < 2 ^ 64)
  | .planResume ctx _ => decide (ctx < 1024)
  | .liveWindowClose die bent arr line => decide (die < 4) && decide (bent < 128) && decide (arr < 4) && decide (line < 1088)
  | .updateSetWrite die bent arr => decide (die < 4) && decide (bent < 128) && decide (arr < 4)
  | .rateWindowEnd die bent arr => decide (die < 4) && decide (bent < 128) && decide (arr < 4)
  | .recalibrationStart die bent t => decide (die < 4) && decide (bent < 128) && decide (t < 2 ^ 64)
  | .recalibrationComplete die bent t _ => decide (die < 4) && decide (bent < 128) && decide (t < 2 ^ 64)
  | .spillStart die t => decide (die < 4) && decide (t < 2 ^ 64)
  | .spillComplete die frame _ t => decide (die < 4) && decide (frame < 2 ^ 24) && decide (t < 2 ^ 64)
  | .prefetchStart die t => decide (die < 4) && decide (t < 2 ^ 64)
  | .prefetchComplete die frame _ _ t => decide (die < 4) && decide (frame < 2 ^ 24) && decide (t < 2 ^ 64)
  | .requestExpiry req t => decide (req < 65536) && decide (t < 2 ^ 64)
  | .shardArrival gen _ _ t => decide (gen < 4096) && decide (t < 2 ^ 64)
  | .sealComplete ctx t => decide (ctx < 1024) && decide (t < 2 ^ 64)
  | .hasherShardCheck die _ t => decide (die < 4) && decide (t < 2 ^ 64)
  | .hasherRehash die _ t => decide (die < 4) && decide (t < 2 ^ 64)
  | .patrolScrubRead stack _ => decide (stack < 8)
  | .regionScrub stack _ => decide (stack < 8)
  | .mapoutComplete _ => true
  | .ethernetFrameReceive port _ _ => decide (port < 32)
  | .ahnazOpen port pkt t => decide (port < 32) && pkt.wf && decide (t < 2 ^ 64)
  | .ahnazOpenAck port pkt t => decide (port < 32) && pkt.wf && decide (t < 2 ^ 64)
  | .ahnazClose port pkt t => decide (port < 32) && pkt.wf && decide (t < 2 ^ 64)
  | .ahnazWrite port pkt t => decide (port < 32) && pkt.wf && decide (t < 2 ^ 64)
  | .ahnazReadReq port pkt t => decide (port < 32) && pkt.wf && decide (t < 2 ^ 64)
  | .ahnazReadResp port pkt t => decide (port < 32) && pkt.wf && decide (t < 2 ^ 64)
  | .ahnazAck port pkt t => decide (port < 32) && pkt.wf && decide (t < 2 ^ 64)
  | .ahnazNak port pkt t => decide (port < 32) && pkt.wf && decide (t < 2 ^ 64)
  | .packetSend chan t => decide (chan < 8192) && decide (t < 2 ^ 64)
  | .ackTimer chan t => decide (chan < 8192) && decide (t < 2 ^ 64)
  | .retryTimeout chan t => decide (chan < 8192) && decide (t < 2 ^ 64)
  | .openTimeout chan t => decide (chan < 8192) && decide (t < 2 ^ 64)
  | .snapshotCopy p => p.wf
  | .snapshotMarker m => m.wf
  | .snapshotComplete t => decide (t < 2 ^ 64)
  | .snapshotTimeout t => decide (t < 2 ^ 64)
  | .periodicAudit t => decide (t < 2 ^ 64)
  | .logRecordWrite => true
  | .updateEnd t => decide (t < 2 ^ 64)
  | .reportWritten t => decide (t < 2 ^ 64)
  | .inputWithinRange _ t => decide (t < 2 ^ 64)
  | .coolantInletNormal _ _ t => decide (t < 2 ^ 64)

/-- The frame dies that a command names. -/
def Instr.dies (i : Instr) : List Nat :=
  match i with
  | .nop _ _ => []
  | .syncAdd _ _ => []
  | .syncSet _ _ => []
  | .syncWait _ _ => []
  | .syncCreate _ _ => []
  | .syncDestroy _ _ => []
  | .queueCreate _ _ => []
  | .queueDestroy _ _ => []
  | .contextCreate _ _ => []
  | .contextDestroy _ _ => []
  | .bentAssign _ _ => []
  | .bentClear _ _ => []
  | .planLoad _ _ => []
  | .planUnload _ _ => []
  | .planRun _ _ => []
  | .planStop _ _ => []
  | .weightLoad _ _ => []
  | .copy _ _ => []
  | .reqAdmit _ _ => []
  | .reqCancel _ _ => []
  | .reqPause _ _ => []
  | .reqResume _ _ => []
  | .reqSet _ _ => []
  | .reqDraft _ _ => []
  | .reqRelease _ _ => []
  | .reqQuery _ _ => []
  | .wgtKeyExport _ _ => []
  | .wgtRegister _ _ => []
  | .wgtSeal _ _ => []
  | .wgtVerify _ _ => []
  | .tpChannelCreate _ _ => []
  | .tpChannelDestroy _ _ => []
  | .tpWrite _ _ => []
  | .tpRead _ _ => []
  | .queDoorbell _ => []
  | .descriptorConsume _ _ _ => []
  | .descriptorComplete _ _ _ => []
  | .syncWaitDeadline _ _ => []
  | .errLogClear p => [p.die]
  | .pageIrqStatWrite p _ => [p.die]
  | .msixUnmask die _ => [die]
  | .rcCounterRead _ _ => []
  | .reqEntryRead => []
  | .registerWrite _ _ _ => []
  | .ledgerHostWrite die _ _ _ => [die]
  | .arrRetire die _ _ => [die]
  | .recal die _ => [die]
  | .kvpCensus die => [die]
  | .reqCensus => []
  | .portCensus _ => []
  | .portRetrain _ => []
  | .portClearRetired _ => []
  | .knotReissue => []
  | .knotCancelReissue => []
  | .shareWrite die _ _ => [die]
  | .planEscAdd die => [die]
  | .planEscRemove die => [die]
  | .adminQueueEnable _ => []
  | .adminQueueDisable => []
  | .syncHostRead => []
  | .syncHostAdd => []
  | .syncHostSet => []
  | .pwrWake die => [die]
  | .pwrWakeLatWrite die _ => [die]
  | .thmTripAck die _ => [die]
  | .memInject die _ => [die]
  | .secUpdate _ => []
  | .secAttest => []
  | .snapRequest _ => []
  | .consAudit => []
  | .consResume => []
  | .hostMemRead _ _ => []
  | .hostMemWrite _ _ => []
  | .identifyMemoryDevice die => [die]
  | .getPartitionInfo die => [die]
  | .getHealthInfo die => [die]
  | .getPoisonList die => [die]
  | .mailboxUnsupported die _ => [die]
  | .monPeek _ _ => []
  | .monPoke _ _ _ => []
  | .monDump _ => []
  | .monSnap _ => []
  | .monTemp die => die.toList
  | .monLog _ => []
  | .monKnots => []
  | .monCal die _ => [die]
  | .monLink _ => []
  | .monCensus => []
  | .monAudit => []
  | .monResume => []
  | .monBaud _ => []
  | .monId => []
  | .monRestart _ => []
  | .monitorBreak => []
  | .romRecoveryImage _ => []
  | .powerOn _ => []
  | .bootStepEnd _ => []
  | .inputWarn _ _ => []
  | .voltageShutdown _ _ _ => []
  | .standbyLoss => []
  | .powerSample _ _ _ => []
  | .powerDemandStep _ _ => []
  | .sensorRead _ _ => []
  | .sensorCrossCheck _ => []
  | .thermalDemandStep _ => []
  | .shutdownStage _ => []
  | .coolantWarn _ _ _ => []
  | .wakeStateEntry die _ => [die]
  | .wakeStart die _ => [die]
  | .wakeComplete die _ => [die]
  | .lightLoss _ _ => []
  | .lightReturn _ _ => []
  | .portTrainingComplete _ => []
  | .laneLockLoss _ _ => []
  | .laneErrorWindow _ _ _ => []
  | .hostLinkModuleLoss die _ => [die]
  | .bridgeModuleLoss die _ => [die]
  | .routerSlotEntry die _ _ _ => [die]
  | .fabricStall die _ _ _ => [die]
  | .fabricResume _ => []
  | .segmentQuantise die _ _ _ _ _ _ => [die]
  | .forwardPass die _ _ _ _ => [die]
  | .transposedPass die _ _ _ => [die]
  | .reserveBeat die _ _ _ => [die]
  | .checkVerdict die _ _ => [die]
  | .passEventSettle die _ _ _ => [die]
  | .escalationWindowEnd die _ _ => [die]
  | .partialWrite die _ _ => [die]
  | .openZero die _ _ => [die]
  | .openLoad die _ _ _ _ _ => [die]
  | .addIn die _ _ _ _ => [die]
  | .ledgerRead die _ _ _ => [die]
  | .ledgerStore die _ _ => [die]
  | .ledgerClose die _ _ => [die]
  | .vecNop die _ _ _ => [die]
  | .vecAdd die _ _ _ => [die]
  | .vecSub die _ _ _ => [die]
  | .vecMul die _ _ _ => [die]
  | .vecFma die _ _ _ => [die]
  | .vecScale die _ _ _ => [die]
  | .vecRowscale die _ _ _ => [die]
  | .vecSilu die _ _ _ => [die]
  | .vecGelu die _ _ _ => [die]
  | .vecSwiglu die _ _ _ => [die]
  | .vecExp die _ _ _ => [die]
  | .vecRecip die _ _ _ => [die]
  | .vecRsqrt die _ _ _ => [die]
  | .vecAttRescale die _ _ _ _ => [die]
  | .vecConvert die _ _ _ => [die]
  | .vecSum die _ _ _ => [die]
  | .vecSumsq die _ _ _ => [die]
  | .vecMeanvar die _ _ _ => [die]
  | .vecMax die _ _ _ => [die]
  | .vecMin die _ _ _ => [die]
  | .vecAbsmax die _ _ _ => [die]
  | .vecDot die _ _ _ => [die]
  | .vecMerge die _ _ _ => [die]
  | .vecAdamw die _ _ _ => [die]
  | .vecRepackCol die _ _ _ => [die]
  | .vecPack die _ _ _ => [die]
  | .vecMxReblock die _ _ _ => [die]
  | .windowOpen die _ _ => [die]
  | .takeQuery die _ _ _ => [die]
  | .takeFresh die _ _ _ => [die]
  | .windowClose die _ _ _ _ => [die]
  | .attSend die _ _ => [die]
  | .gradAccumulate die _ _ _ => [die]
  | .gradFlushComplete die _ => [die]
  | .gradFoldComplete die _ _ => [die]
  | .weightFeedLoad _ die _ _ => [die]
  | .planeLoadComplete die _ _ => [die]
  | .planeDrainEnd die _ _ => [die]
  | .ringPortRead _ die _ _ _ _ => [die]
  | .ringPortWrite _ die _ _ _ => [die]
  | .kvEntryWrite die _ _ _ _ => [die]
  | .gateArrival _ _ _ => []
  | .gateRelease _ _ _ => []
  | .gateDeadline _ _ => []
  | .planResume _ _ => []
  | .liveWindowClose die _ _ _ => [die]
  | .updateSetWrite die _ _ => [die]
  | .rateWindowEnd die _ _ => [die]
  | .recalibrationStart die _ _ => [die]
  | .recalibrationComplete die _ _ _ => [die]
  | .spillStart die _ => [die]
  | .spillComplete die _ _ _ => [die]
  | .prefetchStart die _ => [die]
  | .prefetchComplete die _ _ _ _ => [die]
  | .requestExpiry _ _ => []
  | .shardArrival _ _ _ _ => []
  | .sealComplete _ _ => []
  | .hasherShardCheck die _ _ => [die]
  | .hasherRehash die _ _ => [die]
  | .patrolScrubRead _ _ => []
  | .regionScrub _ _ => []
  | .mapoutComplete _ => []
  | .ethernetFrameReceive _ _ _ => []
  | .ahnazOpen _ _ _ => []
  | .ahnazOpenAck _ _ _ => []
  | .ahnazClose _ _ _ => []
  | .ahnazWrite _ _ _ => []
  | .ahnazReadReq _ _ _ => []
  | .ahnazReadResp _ _ _ => []
  | .ahnazAck _ _ _ => []
  | .ahnazNak _ _ _ => []
  | .packetSend _ _ => []
  | .ackTimer _ _ => []
  | .retryTimeout _ _ => []
  | .openTimeout _ _ => []
  | .snapshotCopy p => [p.die]
  | .snapshotMarker m => [m.page.die]
  | .snapshotComplete _ => []
  | .snapshotTimeout _ => []
  | .periodicAudit _ => []
  | .logRecordWrite => []
  | .updateEnd _ => []
  | .reportWritten _ => []
  | .inputWithinRange _ _ => []
  | .coolantInletNormal _ _ _ => []

end Sys2Proof
end

