-- ==== Sys2Proof/Laws/PerInstr.lean ====
section
/-!
SUPPORT. What well-formedness says of each command, constructor by constructor: it names no frame die beyond F3.
-/

set_option Elab.async false

namespace Sys2Proof.Laws.WellFormed

/-- A well-formed command names frame dies F0 to F3 alone. -/
def Statement (i : Instr) : Prop := i.wf = true → ∀ d ∈ i.dies, d < 4

theorem all_dies (i : Instr) : Statement i := by
  intro h d m
  cases i <;> simp_all [Instr.wf, Instr.dies, Page.wf, MarkerAt.wf]

theorem nop (q : Nat) (ix : Nat) : Statement (.nop q ix) := all_dies _
theorem syncAdd (q : Nat) (ix : Nat) : Statement (.syncAdd q ix) := all_dies _
theorem syncSet (q : Nat) (ix : Nat) : Statement (.syncSet q ix) := all_dies _
theorem syncWait (q : Nat) (seen : SeenAt) : Statement (.syncWait q seen) := all_dies _
theorem syncCreate (q : Nat) (ix : Nat) : Statement (.syncCreate q ix) := all_dies _
theorem syncDestroy (q : Nat) (ix : Nat) : Statement (.syncDestroy q ix) := all_dies _
theorem queueCreate (q : Nat) (ix : Nat) : Statement (.queueCreate q ix) := all_dies _
theorem queueDestroy (q : Nat) (ix : Nat) : Statement (.queueDestroy q ix) := all_dies _
theorem contextCreate (q : Nat) (ix : Nat) : Statement (.contextCreate q ix) := all_dies _
theorem contextDestroy (q : Nat) (ix : Nat) : Statement (.contextDestroy q ix) := all_dies _
theorem bentAssign (q : Nat) (ix : Nat) : Statement (.bentAssign q ix) := all_dies _
theorem bentClear (q : Nat) (ix : Nat) : Statement (.bentClear q ix) := all_dies _
theorem planLoad (q : Nat) (ix : Nat) : Statement (.planLoad q ix) := all_dies _
theorem planUnload (q : Nat) (ix : Nat) : Statement (.planUnload q ix) := all_dies _
theorem planRun (q : Nat) (ix : Nat) : Statement (.planRun q ix) := all_dies _
theorem planStop (q : Nat) (ix : Nat) : Statement (.planStop q ix) := all_dies _
theorem weightLoad (q : Nat) (ix : Nat) : Statement (.weightLoad q ix) := all_dies _
theorem copy (q : Nat) (ix : Nat) : Statement (.copy q ix) := all_dies _
theorem reqAdmit (q : Nat) (ix : Nat) : Statement (.reqAdmit q ix) := all_dies _
theorem reqCancel (q : Nat) (ix : Nat) : Statement (.reqCancel q ix) := all_dies _
theorem reqPause (q : Nat) (ix : Nat) : Statement (.reqPause q ix) := all_dies _
theorem reqResume (q : Nat) (ix : Nat) : Statement (.reqResume q ix) := all_dies _
theorem reqSet (q : Nat) (ix : Nat) : Statement (.reqSet q ix) := all_dies _
theorem reqDraft (q : Nat) (ix : Nat) : Statement (.reqDraft q ix) := all_dies _
theorem reqRelease (q : Nat) (ix : Nat) : Statement (.reqRelease q ix) := all_dies _
theorem reqQuery (q : Nat) (ix : Nat) : Statement (.reqQuery q ix) := all_dies _
theorem wgtKeyExport (q : Nat) (ix : Nat) : Statement (.wgtKeyExport q ix) := all_dies _
theorem wgtRegister (q : Nat) (ix : Nat) : Statement (.wgtRegister q ix) := all_dies _
theorem wgtSeal (q : Nat) (ix : Nat) : Statement (.wgtSeal q ix) := all_dies _
theorem wgtVerify (q : Nat) (ix : Nat) : Statement (.wgtVerify q ix) := all_dies _
theorem tpChannelCreate (q : Nat) (ix : Nat) : Statement (.tpChannelCreate q ix) := all_dies _
theorem tpChannelDestroy (q : Nat) (ix : Nat) : Statement (.tpChannelDestroy q ix) := all_dies _
theorem tpWrite (q : Nat) (ix : Nat) : Statement (.tpWrite q ix) := all_dies _
theorem tpRead (q : Nat) (ix : Nat) : Statement (.tpRead q ix) := all_dies _
theorem queDoorbell (value : BitVec 64) : Statement (.queDoorbell value) := all_dies _
theorem descriptorConsume (q : Nat) (t : Nat) (sram : SramRead) : Statement (.descriptorConsume q t sram) := all_dies _
theorem descriptorComplete (q : Nat) (ix : Nat) (t : Nat) : Statement (.descriptorComplete q ix t) := all_dies _
theorem syncWaitDeadline (q : Nat) (t : Nat) : Statement (.syncWaitDeadline q t) := all_dies _
theorem errLogClear (p : Page) : Statement (.errLogClear p) := all_dies _
theorem pageIrqStatWrite (p : Page) (value : BitVec 32) : Statement (.pageIrqStatWrite p value) := all_dies _
theorem msixUnmask (die : Nat) (entry : Nat) : Statement (.msixUnmask die entry) := all_dies _
theorem rcCounterRead (addr : Nat) (x : HostLoad) : Statement (.rcCounterRead addr x) := all_dies _
theorem reqEntryRead : Statement (.reqEntryRead) := all_dies _
theorem registerWrite (addr : Nat) (size : Nat) (value : BitVec 64) : Statement (.registerWrite addr size value) := all_dies _
theorem ledgerHostWrite (die : Nat) (bent : Nat) (addr : Nat) (value : BitVec 32) : Statement (.ledgerHostWrite die bent addr value) := all_dies _
theorem arrRetire (die : Nat) (bent : Nat) (arr : Nat) : Statement (.arrRetire die bent arr) := all_dies _
theorem recal (die : Nat) (bent : Nat) : Statement (.recal die bent) := all_dies _
theorem kvpCensus (die : Nat) : Statement (.kvpCensus die) := all_dies _
theorem reqCensus : Statement (.reqCensus) := all_dies _
theorem portCensus (port : Nat) : Statement (.portCensus port) := all_dies _
theorem portRetrain (port : Nat) : Statement (.portRetrain port) := all_dies _
theorem portClearRetired (port : Nat) : Statement (.portClearRetired port) := all_dies _
theorem knotReissue : Statement (.knotReissue) := all_dies _
theorem knotCancelReissue : Statement (.knotCancelReissue) := all_dies _
theorem shareWrite (die : Nat) (off : Nat) (value : BitVec 64) : Statement (.shareWrite die off value) := all_dies _
theorem planEscAdd (die : Nat) : Statement (.planEscAdd die) := all_dies _
theorem planEscRemove (die : Nat) : Statement (.planEscRemove die) := all_dies _
theorem adminQueueEnable (msix : Nat) : Statement (.adminQueueEnable msix) := all_dies _
theorem adminQueueDisable : Statement (.adminQueueDisable) := all_dies _
theorem syncHostRead : Statement (.syncHostRead) := all_dies _
theorem syncHostAdd : Statement (.syncHostAdd) := all_dies _
theorem syncHostSet : Statement (.syncHostSet) := all_dies _
theorem pwrWake (die : Nat) : Statement (.pwrWake die) := all_dies _
theorem pwrWakeLatWrite (die : Nat) (value : BitVec 32) : Statement (.pwrWakeLatWrite die value) := all_dies _
theorem thmTripAck (die : Nat) (value : BitVec 32) : Statement (.thmTripAck die value) := all_dies _
theorem memInject (die : Nat) (kind : Nat) : Statement (.memInject die kind) := all_dies _
theorem secUpdate (type : Nat) : Statement (.secUpdate type) := all_dies _
theorem secAttest : Statement (.secAttest) := all_dies _
theorem snapRequest (clear : Bool) : Statement (.snapRequest clear) := all_dies _
theorem consAudit : Statement (.consAudit) := all_dies _
theorem consResume : Statement (.consResume) := all_dies _
theorem hostMemRead (addr : Nat) (size : Nat) : Statement (.hostMemRead addr size) := all_dies _
theorem hostMemWrite (addr : Nat) (data : Bytes) : Statement (.hostMemWrite addr data) := all_dies _
theorem identifyMemoryDevice (die : Nat) : Statement (.identifyMemoryDevice die) := all_dies _
theorem getPartitionInfo (die : Nat) : Statement (.getPartitionInfo die) := all_dies _
theorem getHealthInfo (die : Nat) : Statement (.getHealthInfo die) := all_dies _
theorem getPoisonList (die : Nat) : Statement (.getPoisonList die) := all_dies _
theorem mailboxUnsupported (die : Nat) (op : Nat) : Statement (.mailboxUnsupported die op) := all_dies _
theorem monPeek (addr : Nat) (width : Nat) : Statement (.monPeek addr width) := all_dies _
theorem monPoke (addr : Nat) (width : Nat) (value : BitVec 64) : Statement (.monPoke addr width value) := all_dies _
theorem monDump (addr : Nat) : Statement (.monDump addr) := all_dies _
theorem monSnap (clear : Bool) : Statement (.monSnap clear) := all_dies _
theorem monTemp (die : Option Nat) : Statement (.monTemp die) := all_dies _
theorem monLog (count : Nat) : Statement (.monLog count) := all_dies _
theorem monKnots : Statement (.monKnots) := all_dies _
theorem monCal (die : Nat) (bent : Nat) : Statement (.monCal die bent) := all_dies _
theorem monLink (port : Option Nat) : Statement (.monLink port) := all_dies _
theorem monCensus : Statement (.monCensus) := all_dies _
theorem monAudit : Statement (.monAudit) := all_dies _
theorem monResume : Statement (.monResume) := all_dies _
theorem monBaud (rate : Nat) : Statement (.monBaud rate) := all_dies _
theorem monId : Statement (.monId) := all_dies _
theorem monRestart (confirm : Bool) : Statement (.monRestart confirm) := all_dies _
theorem monitorBreak : Statement (.monitorBreak) := all_dies _
theorem romRecoveryImage (image : Bytes) : Statement (.romRecoveryImage image) := all_dies _
theorem powerOn (voltage : Nat) : Statement (.powerOn voltage) := all_dies _
theorem bootStepEnd (env : BootEnv) : Statement (.bootStepEnd env) := all_dies _
theorem inputWarn (voltage : Nat) (t : Nat) : Statement (.inputWarn voltage t) := all_dies _
theorem voltageShutdown (isOver : Bool) (voltage : Nat) (t : Nat) : Statement (.voltageShutdown isOver voltage t) := all_dies _
theorem standbyLoss : Statement (.standbyLoss) := all_dies _
theorem powerSample (watts : Nat) (dies : List Nat) (t : Nat) : Statement (.powerSample watts dies t) := all_dies _
theorem powerDemandStep (average : Nat) (t : Nat) : Statement (.powerDemandStep average t) := all_dies _
theorem sensorRead (readings : List (List Int)) (t : Nat) : Statement (.sensorRead readings t) := all_dies _
theorem sensorCrossCheck (t : Nat) : Statement (.sensorCrossCheck t) := all_dies _
theorem thermalDemandStep (t : Nat) : Statement (.thermalDemandStep t) := all_dies _
theorem shutdownStage (t : Nat) : Statement (.shutdownStage t) := all_dies _
theorem coolantWarn (inlet : Int) (outlet : Int) (t : Nat) : Statement (.coolantWarn inlet outlet t) := all_dies _
theorem wakeStateEntry (die : Nat) (t : Nat) : Statement (.wakeStateEntry die t) := all_dies _
theorem wakeStart (die : Nat) (t : Nat) : Statement (.wakeStart die t) := all_dies _
theorem wakeComplete (die : Nat) (t : Nat) : Statement (.wakeComplete die t) := all_dies _
theorem lightLoss (engine : Nat) (power : Int) : Statement (.lightLoss engine power) := all_dies _
theorem lightReturn (engine : Nat) (power : Int) : Statement (.lightReturn engine power) := all_dies _
theorem portTrainingComplete (port : Nat) : Statement (.portTrainingComplete port) := all_dies _
theorem laneLockLoss (port : Nat) (lane : Nat) : Statement (.laneLockLoss port lane) := all_dies _
theorem laneErrorWindow (port : Nat) (ratios : List Nat) (crcFails : Nat) : Statement (.laneErrorWindow port ratios crcFails) := all_dies _
theorem hostLinkModuleLoss (die : Nat) (module : Nat) : Statement (.hostLinkModuleLoss die module) := all_dies _
theorem bridgeModuleLoss (die : Nat) (module : Nat) : Statement (.bridgeModuleLoss die module) := all_dies _
theorem routerSlotEntry (die : Nat) (bent : Nat) (crcBad : List Nat) (reads : List (Nat × Nat)) : Statement (.routerSlotEntry die bent crcBad reads) := all_dies _
theorem fabricStall (die : Nat) (bent : Nat) (port : Nat) (t : Nat) : Statement (.fabricStall die bent port t) := all_dies _
theorem fabricResume (t : Nat) : Statement (.fabricResume t) := all_dies _
theorem segmentQuantise (die : Nat) (bent : Nat) (arr : Nat) (slot : Nat) (take : Nat) (half : Bool) (score : Option ScoreIn) : Statement (.segmentQuantise die bent arr slot take half score) := all_dies _
theorem forwardPass (die : Nat) (bent : Nat) (arr : Nat) (slot : Nat) (score : Option Nat) : Statement (.forwardPass die bent arr slot score) := all_dies _
theorem transposedPass (die : Nat) (bent : Nat) (arr : Nat) (slot : Nat) : Statement (.transposedPass die bent arr slot) := all_dies _
theorem reserveBeat (die : Nat) (bent : Nat) (arr : Nat) (slot : Nat) : Statement (.reserveBeat die bent arr slot) := all_dies _
theorem checkVerdict (die : Nat) (bent : Nat) (arr : Nat) : Statement (.checkVerdict die bent arr) := all_dies _
theorem passEventSettle (die : Nat) (bent : Nat) (arr : Nat) (t : Nat) : Statement (.passEventSettle die bent arr t) := all_dies _
theorem escalationWindowEnd (die : Nat) (bent : Nat) (arr : Nat) : Statement (.escalationWindowEnd die bent arr) := all_dies _
theorem partialWrite (die : Nat) (bent : Nat) (arr : Nat) : Statement (.partialWrite die bent arr) := all_dies _
theorem openZero (die : Nat) (bent : Nat) (slot : Nat) : Statement (.openZero die bent slot) := all_dies _
theorem openLoad (die : Nat) (bent : Nat) (slot : Nat) (sram : SramRead) (scr : SramRead) (row : SramRead) : Statement (.openLoad die bent slot sram scr row) := all_dies _
theorem addIn (die : Nat) (bent : Nat) (slot : Nat) (sram : SramRead) (row : SramRead) : Statement (.addIn die bent slot sram row) := all_dies _
theorem ledgerRead (die : Nat) (bent : Nat) (slot : Nat) (sram : SramRead) : Statement (.ledgerRead die bent slot sram) := all_dies _
theorem ledgerStore (die : Nat) (bent : Nat) (slot : Nat) : Statement (.ledgerStore die bent slot) := all_dies _
theorem ledgerClose (die : Nat) (bent : Nat) (slot : Nat) : Statement (.ledgerClose die bent slot) := all_dies _
theorem vecNop (die : Nat) (bent : Nat) (slot : Nat) (sram : SramRead) : Statement (.vecNop die bent slot sram) := all_dies _
theorem vecAdd (die : Nat) (bent : Nat) (slot : Nat) (sram : SramRead) : Statement (.vecAdd die bent slot sram) := all_dies _
theorem vecSub (die : Nat) (bent : Nat) (slot : Nat) (sram : SramRead) : Statement (.vecSub die bent slot sram) := all_dies _
theorem vecMul (die : Nat) (bent : Nat) (slot : Nat) (sram : SramRead) : Statement (.vecMul die bent slot sram) := all_dies _
theorem vecFma (die : Nat) (bent : Nat) (slot : Nat) (sram : SramRead) : Statement (.vecFma die bent slot sram) := all_dies _
theorem vecScale (die : Nat) (bent : Nat) (slot : Nat) (sram : SramRead) : Statement (.vecScale die bent slot sram) := all_dies _
theorem vecRowscale (die : Nat) (bent : Nat) (slot : Nat) (sram : SramRead) : Statement (.vecRowscale die bent slot sram) := all_dies _
theorem vecSilu (die : Nat) (bent : Nat) (slot : Nat) (sram : SramRead) : Statement (.vecSilu die bent slot sram) := all_dies _
theorem vecGelu (die : Nat) (bent : Nat) (slot : Nat) (sram : SramRead) : Statement (.vecGelu die bent slot sram) := all_dies _
theorem vecSwiglu (die : Nat) (bent : Nat) (slot : Nat) (sram : SramRead) : Statement (.vecSwiglu die bent slot sram) := all_dies _
theorem vecExp (die : Nat) (bent : Nat) (slot : Nat) (sram : SramRead) : Statement (.vecExp die bent slot sram) := all_dies _
theorem vecRecip (die : Nat) (bent : Nat) (slot : Nat) (sram : SramRead) : Statement (.vecRecip die bent slot sram) := all_dies _
theorem vecRsqrt (die : Nat) (bent : Nat) (slot : Nat) (sram : SramRead) : Statement (.vecRsqrt die bent slot sram) := all_dies _
theorem vecAttRescale (die : Nat) (bent : Nat) (slot : Nat) (sram : SramRead) (soft : Option SoftIn) : Statement (.vecAttRescale die bent slot sram soft) := all_dies _
theorem vecConvert (die : Nat) (bent : Nat) (slot : Nat) (sram : SramRead) : Statement (.vecConvert die bent slot sram) := all_dies _
theorem vecSum (die : Nat) (bent : Nat) (slot : Nat) (sram : SramRead) : Statement (.vecSum die bent slot sram) := all_dies _
theorem vecSumsq (die : Nat) (bent : Nat) (slot : Nat) (sram : SramRead) : Statement (.vecSumsq die bent slot sram) := all_dies _
theorem vecMeanvar (die : Nat) (bent : Nat) (slot : Nat) (sram : SramRead) : Statement (.vecMeanvar die bent slot sram) := all_dies _
theorem vecMax (die : Nat) (bent : Nat) (slot : Nat) (sram : SramRead) : Statement (.vecMax die bent slot sram) := all_dies _
theorem vecMin (die : Nat) (bent : Nat) (slot : Nat) (sram : SramRead) : Statement (.vecMin die bent slot sram) := all_dies _
theorem vecAbsmax (die : Nat) (bent : Nat) (slot : Nat) (sram : SramRead) : Statement (.vecAbsmax die bent slot sram) := all_dies _
theorem vecDot (die : Nat) (bent : Nat) (slot : Nat) (sram : SramRead) : Statement (.vecDot die bent slot sram) := all_dies _
theorem vecMerge (die : Nat) (bent : Nat) (slot : Nat) (sram : SramRead) : Statement (.vecMerge die bent slot sram) := all_dies _
theorem vecAdamw (die : Nat) (bent : Nat) (slot : Nat) (sram : SramRead) : Statement (.vecAdamw die bent slot sram) := all_dies _
theorem vecRepackCol (die : Nat) (bent : Nat) (slot : Nat) (sram : SramRead) : Statement (.vecRepackCol die bent slot sram) := all_dies _
theorem vecPack (die : Nat) (bent : Nat) (slot : Nat) (sram : SramRead) : Statement (.vecPack die bent slot sram) := all_dies _
theorem vecMxReblock (die : Nat) (bent : Nat) (slot : Nat) (sram : SramRead) : Statement (.vecMxReblock die bent slot sram) := all_dies _
theorem windowOpen (die : Nat) (engine : Nat) (slot : Nat) : Statement (.windowOpen die engine slot) := all_dies _
theorem takeQuery (die : Nat) (engine : Nat) (slot : Nat) (sram : SramRead) : Statement (.takeQuery die engine slot sram) := all_dies _
theorem takeFresh (die : Nat) (engine : Nat) (slot : Nat) (sram : SramRead) : Statement (.takeFresh die engine slot sram) := all_dies _
theorem windowClose (die : Nat) (engine : Nat) (slot : Nat) (done : List Nat) (t : Nat) : Statement (.windowClose die engine slot done t) := all_dies _
theorem attSend (die : Nat) (engine : Nat) (slot : Nat) : Statement (.attSend die engine slot) := all_dies _
theorem gradAccumulate (die : Nat) (gunit : Nat) (slot : Nat) (sram : SramRead) : Statement (.gradAccumulate die gunit slot sram) := all_dies _
theorem gradFlushComplete (die : Nat) (gunit : Nat) : Statement (.gradFlushComplete die gunit) := all_dies _
theorem gradFoldComplete (die : Nat) (gunit : Nat) (tile : Nat) : Statement (.gradFoldComplete die gunit tile) := all_dies _
theorem weightFeedLoad (ctx : Nat) (die : Nat) (slot : Nat) (kv : Option KvTile) : Statement (.weightFeedLoad ctx die slot kv) := all_dies _
theorem planeLoadComplete (die : Nat) (bent : Nat) (x : LoadEnd) : Statement (.planeLoadComplete die bent x) := all_dies _
theorem planeDrainEnd (die : Nat) (bent : Nat) (arr : Nat) : Statement (.planeDrainEnd die bent arr) := all_dies _
theorem ringPortRead (ctx : Nat) (die : Nat) (port : Nat) (slot : Nat) (ready : Bool) (upset : Bool) : Statement (.ringPortRead ctx die port slot ready upset) := all_dies _
theorem ringPortWrite (ctx : Nat) (die : Nat) (port : Nat) (slot : Nat) (crcBad : Bool) : Statement (.ringPortWrite ctx die port slot crcBad) := all_dies _
theorem kvEntryWrite (die : Nat) (req : Nat) (layer : Nat) (pos : Nat) (ring : RingAt) : Statement (.kvEntryWrite die req layer pos ring) := all_dies _
theorem gateArrival (ctx : Nat) (slot : Nat) (t : Nat) : Statement (.gateArrival ctx slot t) := all_dies _
theorem gateRelease (ctx : Nat) (outs : List ReqOut) (seen : SeenAt) : Statement (.gateRelease ctx outs seen) := all_dies _
theorem gateDeadline (ctx : Nat) (t : Nat) : Statement (.gateDeadline ctx t) := all_dies _
theorem planResume (ctx : Nat) (fslot : Nat) : Statement (.planResume ctx fslot) := all_dies _
theorem liveWindowClose (die : Nat) (bent : Nat) (arr : Nat) (line : Nat) : Statement (.liveWindowClose die bent arr line) := all_dies _
theorem updateSetWrite (die : Nat) (bent : Nat) (arr : Nat) : Statement (.updateSetWrite die bent arr) := all_dies _
theorem rateWindowEnd (die : Nat) (bent : Nat) (arr : Nat) : Statement (.rateWindowEnd die bent arr) := all_dies _
theorem recalibrationStart (die : Nat) (bent : Nat) (t : Nat) : Statement (.recalibrationStart die bent t) := all_dies _
theorem recalibrationComplete (die : Nat) (bent : Nat) (t : Nat) (sram : SramRead) : Statement (.recalibrationComplete die bent t sram) := all_dies _
theorem spillStart (die : Nat) (t : Nat) : Statement (.spillStart die t) := all_dies _
theorem spillComplete (die : Nat) (frame : Nat) (ok : Bool) (t : Nat) : Statement (.spillComplete die frame ok t) := all_dies _
theorem prefetchStart (die : Nat) (t : Nat) : Statement (.prefetchStart die t) := all_dies _
theorem prefetchComplete (die : Nat) (frame : Nat) (ok : Bool) (data : Bytes) (t : Nat) : Statement (.prefetchComplete die frame ok data t) := all_dies _
theorem requestExpiry (req : Nat) (t : Nat) : Statement (.requestExpiry req t) := all_dies _
theorem shardArrival (gen : Nat) (shard : Nat) (data : Bytes) (t : Nat) : Statement (.shardArrival gen shard data t) := all_dies _
theorem sealComplete (ctx : Nat) (t : Nat) : Statement (.sealComplete ctx t) := all_dies _
theorem hasherShardCheck (die : Nat) (upset : Bool) (t : Nat) : Statement (.hasherShardCheck die upset t) := all_dies _
theorem hasherRehash (die : Nat) (upset : Bool) (t : Nat) : Statement (.hasherRehash die upset t) := all_dies _
theorem patrolScrubRead (stack : Nat) (readback : Bool) : Statement (.patrolScrubRead stack readback) := all_dies _
theorem regionScrub (stack : Nat) (readback : Bool) : Statement (.regionScrub stack readback) := all_dies _
theorem mapoutComplete (block : Nat) : Statement (.mapoutComplete block) := all_dies _
theorem ethernetFrameReceive (port : Nat) (data : Bytes) (fcsOk : Bool) : Statement (.ethernetFrameReceive port data fcsOk) := all_dies _
theorem ahnazOpen (port : Nat) (pkt : Pkt) (t : Nat) : Statement (.ahnazOpen port pkt t) := all_dies _
theorem ahnazOpenAck (port : Nat) (pkt : Pkt) (t : Nat) : Statement (.ahnazOpenAck port pkt t) := all_dies _
theorem ahnazClose (port : Nat) (pkt : Pkt) (t : Nat) : Statement (.ahnazClose port pkt t) := all_dies _
theorem ahnazWrite (port : Nat) (pkt : Pkt) (t : Nat) : Statement (.ahnazWrite port pkt t) := all_dies _
theorem ahnazReadReq (port : Nat) (pkt : Pkt) (t : Nat) : Statement (.ahnazReadReq port pkt t) := all_dies _
theorem ahnazReadResp (port : Nat) (pkt : Pkt) (t : Nat) : Statement (.ahnazReadResp port pkt t) := all_dies _
theorem ahnazAck (port : Nat) (pkt : Pkt) (t : Nat) : Statement (.ahnazAck port pkt t) := all_dies _
theorem ahnazNak (port : Nat) (pkt : Pkt) (t : Nat) : Statement (.ahnazNak port pkt t) := all_dies _
theorem packetSend (chan : Nat) (t : Nat) : Statement (.packetSend chan t) := all_dies _
theorem ackTimer (chan : Nat) (t : Nat) : Statement (.ackTimer chan t) := all_dies _
theorem retryTimeout (chan : Nat) (t : Nat) : Statement (.retryTimeout chan t) := all_dies _
theorem openTimeout (chan : Nat) (t : Nat) : Statement (.openTimeout chan t) := all_dies _
theorem snapshotCopy (p : Page) : Statement (.snapshotCopy p) := all_dies _
theorem snapshotMarker (m : MarkerAt) : Statement (.snapshotMarker m) := all_dies _
theorem snapshotComplete (t : Nat) : Statement (.snapshotComplete t) := all_dies _
theorem snapshotTimeout (t : Nat) : Statement (.snapshotTimeout t) := all_dies _
theorem periodicAudit (t : Nat) : Statement (.periodicAudit t) := all_dies _
theorem logRecordWrite : Statement (.logRecordWrite) := all_dies _
theorem updateEnd (t : Nat) : Statement (.updateEnd t) := all_dies _
theorem reportWritten (t : Nat) : Statement (.reportWritten t) := all_dies _
theorem inputWithinRange (voltage : Nat) (t : Nat) : Statement (.inputWithinRange voltage t) := all_dies _
theorem coolantInletNormal (inlet : Int) (outlet : Int) (t : Nat) : Statement (.coolantInletNormal inlet outlet t) := all_dies _

end Sys2Proof.Laws.WellFormed
end

