-- ==== Sys2Proof/Tests/Demo.lean ====
section
/-!
SUPPORT. Small states for the tests: a package that is up, with one object of each type in its first slot, all of tenant 0.
-/

set_option Elab.async false

namespace Sys2Proof.Tests

open Sys2Proof.Machine

/-- A package that is ready, with a knot map and no work. -/
def up : State :=
  { State.reset with
    boot := { Boot.reset with phase := 3, mcState := 1, devReady := 0xFFFFFF }
    fab := { Fab.reset with knots := ⟨1, 0, 0, List.replicate 4 ⟨[], [], [], [], [], [], 8⟩⟩ } }

/-- A slot table whose slot `i` is held by tenant 0. -/
def oneHeld (i : Nat) : SlotTable := ⟨[(i, ⟨1, true, some 0⟩)], i + 1, []⟩

/-- Device memory on stack 2, the first of die 1. -/
abbrev mem0 : Nat := 0x10000000000 + 2 * stackSpan

/-- A descriptor with an opcode and arguments, each at its byte offset. -/
def desc (op : Nat) (fs : List (Nat × Nat)) : Bytes := leBytes 64 (fs.foldl (fun n e => n + e.2 * 256 ^ e.1) op)

/-- The descriptor of ring index 0 of queue 32, in a phase. -/
def fl (op : Nat) (fs : List (Nat × Nat)) (p : FPhase := .started) : Flight := ⟨32, 0, 0, 0, 33, 0, desc op fs, p, 0, 0, 0⟩

def subq : Queue := ⟨false, 0, mem0, 4, 0, 33, 0xFFFF, 0, 0, 0, 0, false, false, false, false, none⟩
def comq : Queue := ⟨true, 0, mem0 + 0x1000, 4, 0, 0, 0xFFFF, 0, 0, 0, 0, false, false, false, false, none⟩

/-- A KV record with one layer group of one layer and head, in pages of die 0. -/
def kv0 : KvRec := ⟨0, 512, 0, 16, 0, 16, [⟨false, 0, 1, 1, 128, 144, 512, 0⟩]⟩

/-- An idle context. -/
def ctx0 : Ctx where
  tenant := 0
  created := 0
  kv := kv0
  key := []
  kvKey := []
  primary := some 0
  fallback := none
  run := none
  lastError := 0
  lastPlan := 0
  lastStrict := false
  lastSched := 0
  steps := 0
  esc := []
  escUnavail := []
  escPend := []
  faulted := none
  faultState := false
  strikes := []
  curGen := 0x60010000
  waited := []
  genQueue := []
  spillSeq := 0
  farFree := []
  farNext := 0
  sealOp := none

/-- A schedule with one bucket, one layer, and one segment of the given streams. -/
def sched0 (streams : List Stream) : Sched := ⟨[⟨8, 64, 0, 1⟩], [⟨2, 0xFFFF, 0⟩], [⟨64, []⟩, ⟨64, []⟩, ⟨4096, streams⟩], [], []⟩

def img0 (streams : List Stream) : PlanImg where
  strict := false
  learning := false
  optimiser := false
  keys := []
  altCount := 0
  variants := 7
  dies := 1
  bucketCount := 1
  layerCount := 1
  bindCount := 0
  memBindCount := 1
  swapDeadline := 0
  scheds := [sched0 streams]
  att := [⟨0, 0, 0, 1, 8, 0x3F800000, 0, 0⟩]
  shardMap := []
  digest := []

def plan0 (streams : List Stream) : PlanObj := ⟨0, 0, img0 streams, [], [(mem0 + 0x100000000, 0x100000)], 0, [], []⟩

/-- A run in its step, in bucket 0 with its only layer. -/
def run0 : Run where
  plan := 0
  flight := (32, 0)
  lead := 0
  strict := false
  sched := 0
  nextSched := none
  bucket := 0
  stepSegs := [0, 2, 1]
  inStep := true
  gate := none
  boundary := false
  arrival := 0
  released := false
  align := false
  ext := 0
  recalFrom := none
  swapped := []
  met := []
  swapWaits := []
  lastGate := 0
  knotSeen := 1
  stop := []
  stopAt := none
  destroy := none
  roster := []
  stepGen := 0x60010000
  nextGen := 0
  unavail := []
  fslot := 0
  baseSlot := 0
  leftAt := 0
  scan := Scan.zero
  undo := []

def req0 : ReqEnt where
  state := Rq.decode
  priority := 0
  spillable := false
  follow := false
  boundStrict := false
  cancelPending := false
  cancelLate := false
  spillHold := false
  yielded := false
  deadlineMissed := false
  pausePending := false
  specLen := 0
  endCode := 0
  rejectRun := 0
  ctx := 0
  gen := 0x60010000
  length := 4
  promptLen := 4
  dir := mem0 + 0x120000000
  ringHead := 0
  ringTail := 0
  deadline := 0
  interval := 0
  ttl := 0
  pauseStamp := 0
  admitStamp := 0
  output := 0x20010021
  userTag := 0
  stopToken := 0
  maxNew := 8
  outCount := 0
  switchStep := 0
  promptAddr := mem0 + 0x130000000
  draftAddr := 0
  draftCount := 0
  expireAt := 0
  poisonFound := false
  switched := false

def shard0 : Shard := ⟨0, 0, 131072, 0, 1, 0, [], mem0 + 0x140000000, false, 0⟩
def gen0 : Gen := ⟨0, false, (32, 0), 0, 1, mem0 + 0x150000000, [], [{ shard0 with passed := true }], [], some 0, false, []⟩

/-- A paired channel on port 0. -/
def chan0 : Channel where
  tenant := 0
  peerMac := 0x0123456789AB
  key := 0
  mask := 1
  base := mem0 + 0x160000000
  bytes := 0x100000
  notify := 0
  vlan := 0
  rxLimit := List.replicate 8 64
  retryTimeout := 1000
  retryLimit := 8
  openBy := 1000
  flight := (32, 0)
  paired := true
  peer := 7
  peerEpoch := 1
  peerBytes := 0x100000
  port := 0
  nextSeq := 0
  expect := 0
  unacked := []
  queued := []
  txLimit := List.replicate 8 64
  txAvail := List.replicate 8 64
  txOut := List.replicate 8 0
  granted := List.replicate 8 64
  rxHeld := List.replicate 8 0
  freed := List.replicate 8 0
  grantTurn := 0
  nakSent := false
  unackedRx := 0
  rounds := 0
  progress := 0
  ops := []
  nextOp := 0

/-- The package up, with one object of each type. -/
def full : State :=
  { up with
    handles := ⟨oneHeld 0, ⟨[(32, ⟨1, true, some 0⟩), (33, ⟨1, true, some 0⟩)], 34, []⟩, oneHeld 0, oneHeld 0, oneHeld 0, oneHeld 0, oneHeld 0⟩
    que := { QueSt.reset with queues := [(32, some subq), (33, some comq)] }
    syncs := [(0, 5)]
    ctxs := [(0, some ctx0)]
    plans := [(0, some (plan0 []))]
    gens := [(0, some gen0)]
    chans := [(0, some chan0)]
    ports := [(0, ⟨2, true, 255, 0, [], 0, []⟩)]
    optics := [(0, ⟨true, 1700⟩)]
    req := { ReqSt.reset with entries := [(0, some req0)], free := 65535, live := 1 }
    owners := [(0, some 0)] }

/-- `s` with one descriptor in flight. -/
def run1 (s : State) (f : Flight) : State := { s with que := { s.que with flights := [f] } }

/-- `s` with every router at the start of a fabric slot. -/
def atSlot (n : Nat) (s : State) : State := { s with fab := { s.fab with base := n } }

/-- `s` with bytes in T1. -/
def withMem (s : State) (ws : List (Nat × Bytes)) : State :=
  { s with mem := ws.foldl (fun (m : Mem) (w : Nat × Bytes) => m.putBytes w.1 w.2) s.mem }

/-- Bytes with numbers at their offsets. -/
def block (n : Nat) (fs : List (Nat × Nat)) : Bytes := leBytes n (fs.foldl (fun a e => a + e.2 * 256 ^ e.1) 0)

/-- `s` with context 0 running. -/
def running (s : State) (r : Run) : State := { s with ctxs := [(0, some { ctx0 with run := some r })] }

def hCtx : Nat := mkHandle .ctx 1 0
def hSync : Nat := mkHandle .sync 1 0
def hPlan : Nat := mkHandle .plan 1 0
def hReq : Nat := mkHandle .req 1 0
def hGen0 : Nat := mkHandle .gen 1 0
def hChan : Nat := mkHandle .chan 1 0

end Sys2Proof.Tests
end

