-- ==== Sys2Proof/Tests/Bents.lean ====
section
/-!
SUPPORT. States that meet the hypotheses of the statements about the work that plans drive: ledgers, vector units, passes, attention,
gradients, calibration, gates and frames; at the edges of their ranges.
-/

set_option Elab.async false

namespace Sys2Proof.Tests

open Sys2Proof.Machine

/-- A plan of context 0 runs, whose one stream meets the word `w` in step slot 64; it owns the first bent and the last engine's. -/
def streamOf (kind unit sub w : Nat) : List Stream := [⟨kind, 0, unit, sub, [(0, w)]⟩]
def meeting (kind unit sub w : Nat) : State :=
  running { full with owners := [(0, some 0), (120, some 0)], plans := [(0, some (plan0 (streamOf kind unit sub w)))] } run0
def liveOf (kind unit sub w : Nat) : Live :=
  ⟨0, { ctx0 with run := some run0 }, run0, plan0 (streamOf kind unit sub w), sched0 (streamOf kind unit sub w)⟩

/-- Each ledger operation on the last row of the last tile. -/
def ledgW (op : Nat) : Nat := op * 2 ^ 60 + 15 * 2 ^ 56 + 31 * 2 ^ 51 + 7 * 2 ^ 48

theorem witness_LedgerWordsAct :
    ∀ op, op ∈ [1, 2, 3, 4, 5, 6] → ((meeting 2 0 0 (ledgW op)).ready = true ∧ (meeting 2 0 0 (ledgW op)).shut = none) ∧
      (meeting 2 0 0 (ledgW op)).bentWord 2 0 0 0 64 = some (liveOf 2 0 0 (ledgW op), ledgW op) ∧ bits (ledgW op) 63 60 = op ∧
      (meeting 2 0 0 (ledgW op)).ledgTurn 0 0 (liveOf 2 0 0 (ledgW op)) 64 (ledgW op) = true ∧
      ({ meeting 2 0 0 (ledgW op) with bents := [(0, { Bent.reset with ledgAt := 65 })] } : State).ledgTurn 0 0
        (liveOf 2 0 0 (ledgW op)) 64 (ledgW op) = false := by
  decide +kernel

/-- The last record of the bench, with an operation and one element, for a unit that is busy up to a slot. -/
def vecW : Nat := 2 ^ 60 + 0x1FFFC0
def vecState (op busy : Nat) : State :=
  { meeting 3 0 0 vecW with
    bents := [(0, { Bent.reset with bench := [(0x7FFF0, BitVec.ofNat 32 op), (0x7FFF1, 1)], vecBusy := busy })] }
def vecOps : List Nat := upFrom 0 0x0F ++ upFrom 0x10 12

/-- What `State.vecMeets` asks, for the record as the bench holds it. -/
def vecFits (op busy : Nat) : Prop :=
  let s := vecState op busy
  s.ready = true ∧ s.shut = none ∧ s.bentWord 3 0 0 0 64 = some (liveOf 3 0 0 vecW, vecW) ∧ bits vecW 63 60 = 1 ∧
    ((s.bent 0 0).vrec (bits vecW 20 0)).op = op ∧ (s.bent 0 0).vecBusy = busy ∧ (liveOf 3 0 0 vecW).fabSlot 64 = 64 ∧
    s.vecCome 0 0 (liveOf 3 0 0 vecW) 64 ((s.bent 0 0).vrec (bits vecW 20 0)) = true
/-- A record whose operand A comes over the fabric, before its flits have come. -/
def fabRec : State :=
  { meeting 3 0 0 vecW with bents := [(0, { Bent.reset with bench := [(0x7FFF0, 0x0101), (0x7FFF1, 1)] })] }

/-- In the last slot in which the unit is free, every operation runs; one slot earlier it is dropped. -/
theorem witness_VectorElementsAreComputed :
    (∀ op, op ∈ vecOps → vecFits op 64 ∧ (((vecState op 64).bent 0 0).vrec (bits vecW 20 0)).invalid = false) ∧
    vecFits 0x01 65 ∧ vecFits 0x0F 64 ∧ opReserved 0x0F = true ∧
    (let r := (fabRec.bent 0 0).vrec (bits vecW 20 0)
     r.op = 1 ∧ r.invalid = false ∧ fabRec.vecCome 0 0 (liveOf 3 0 0 vecW) 64 r = false ∧
      (atSlot 65 fabRec).vecCome 0 0 (liveOf 3 0 0 vecW) 64 r = true) := by
  unfold vecFits; repeat' apply And.intro
  all_goals decide +kernel

theorem witness_VectorReductionsAndRepacking :
    (∀ op, op ∈ upFrom 0x10 12 → vecFits op 64 ∧ (((vecState op 64).bent 0 0).vrec (bits vecW 20 0)).invalid = false) ∧
    vecFits 0x10 65 := by
  unfold vecFits; repeat' apply And.intro
  all_goals decide +kernel

/-! ### Passes -/

def pass0 (st : Stage) (zero : Bool) : Pass where
  id := 0
  word := 0
  slot := 64
  ord := 0
  ord2 := 0
  ctx := 0
  role := .normal
  isRepeat := false
  entry := none
  stage := st
  zero := zero
  plane := 0
  bank := 0
  plane2 := 0
  bank2 := 0
  sm := 1
  se := 0
  q := []
  outl := []
  second := []
  j := 0
  flags := 0
  epoch := 0
  codes := []
  nodes := []
  missed := []
  mask := []
  wr := .full
  closes := 0
  score := none
  window := 0
  window2 := 0

/-- The last array of the bent meets a word, with a pass in a stage. -/
def passing (w : Nat) (ps : List Pass) : State := { meeting 1 0 3 w with arrs := [(3, { Arr.reset with passes := ps, nextPass := 1 })] }
def openRow (s : State) : State := { s with bents := [(0, { Bent.reset with rows := [(0, { LRow.closed with isOpen := true })] })] }
/-- A pass of the step's first slot, whose later stages the plan's next gate lets act. -/
def early (st : Stage) : Pass := { pass0 st false with slot := 0 }
/-- The same while the plan waits at a gate in slot 24. -/
def gated (s : State) : State := running s { run0 with gate := some 24 }
/-- An array word and a ledger word in the same step slot, the ledger word acted or not. -/
def twoStreams (at_ : Nat) : State :=
  { running { full with plans := [(0, some (plan0 [⟨1, 0, 0, 3, [(0, 0)]⟩, ⟨2, 0, 0, 0, [(0, 2 ^ 60)]⟩]))] } run0 with
    bents := [(0, { Bent.reset with ledgAt := at_ })], arrs := [(3, { Arr.reset with passes := [pass0 .quantised false], nextPass := 1 })] }

theorem witness_PassesRunFromQuantiseToWrite :
    (∀ k, k ∈ [0, 1] → (passing (k * 2 ^ 62) []).isUp ∧
      (passing (k * 2 ^ 62) []).segWord 0 0 3 64 = some (liveOf 1 0 3 (k * 2 ^ 62), k * 2 ^ 62, upFrom 48 16) ∧ bits (k * 2 ^ 62) 63 62 = k ∧
      ((passing (k * 2 ^ 62) []).arr 0 0 3).passes = [] ∧ (passing (k * 2 ^ 62) []).routerPast 0 0 64 = false ∧
      (atSlot 64 (passing (k * 2 ^ 62) [])).segWord 0 0 3 64 = some (liveOf 1 0 3 (k * 2 ^ 62), k * 2 ^ 62, upFrom 48 16) ∧
      (upFrom 48 16).all (fun n => (atSlot 64 (passing (k * 2 ^ 62) [])).routerPast 0 0 (n + 1)) = true) ∧
    (∀ k, k ∈ [0, 1] → (passing (k * 2 ^ 62) [pass0 .quantised false]).isUp ∧
      (passing (k * 2 ^ 62) [pass0 .quantised false]).bentWord 1 0 0 3 64 = some (liveOf 1 0 3 (k * 2 ^ 62), k * 2 ^ 62) ∧
      ((passing (k * 2 ^ 62) [pass0 .quantised false]).arr 0 0 3).passes.find?
        (fun p => p.stage == .quantised && p.slot == ((64 : Nat) : Int) && p.ctx == 0) = some (pass0 .quantised false) ∧
      (passing (k * 2 ^ 62) [pass0 .quantised false]).ledgPast (liveOf 1 0 3 (k * 2 ^ 62)) 0 0 65 = true) ∧
    ((twoStreams 64).live 0).map (fun l => (twoStreams 64).ledgPast l 0 0 65) = some false ∧
    ((twoStreams 65).live 0).map (fun l => (twoStreams 65).ledgPast l 0 0 65) = some true ∧
    ((passing (2 * 2 ^ 62) []).isUp ∧ (passing (2 * 2 ^ 62) []).bentWord 1 0 0 3 64 = some (liveOf 1 0 3 (2 * 2 ^ 62), 2 * 2 ^ 62) ∧
      bits (2 * 2 ^ 62) 63 62 = 2) ∧
    ((passing 0 [early .driven]).isUp ∧ (passing 0 [early .driven]).dueIn 0 0 3 .driven 24 = some (early .driven) ∧
      (gated (passing 0 [early .driven])).dueIn 0 0 3 .driven 24 = none) ∧
    ((passing 0 [early .checked]).dueIn 0 0 3 .checked 31 = some (early .checked) ∧
      (gated (passing 0 [early .checked])).dueIn 0 0 3 .checked 31 = none) ∧
    ((openRow (passing 0 [early .settled])).dueIn 0 0 3 .settled 47 = some (early .settled) ∧
      (gated (passing 0 [early .settled])).dueIn 0 0 3 .settled 47 = none ∧
      (openRow (passing 0 [early .settled])).writeTurn 0 0 3 (early .settled) = true ∧
      ((openRow (passing 0 [early .settled])).bent 0 0).row (early .settled).rowK = { LRow.closed with isOpen := true }) ∧
    ({ passing 0 [early .settled] with arrs := [(2, { Arr.reset with passes := [early .driven] }), (3, { Arr.reset with passes := [early .settled] })] } :
      State).writeTurn 0 0 3 (early .settled) = false := by
  unfold State.isUp; repeat' apply And.intro
  all_goals decide +kernel

/-! ### Attention, gradients and the KV writer -/

theorem witness_AttentionWindowsRun :
    ∀ op, op ∈ [1, 2, 3, 4, 5] → ((meeting 4 15 0 (op * 2 ^ 60)).ready = true ∧ (meeting 4 15 0 (op * 2 ^ 60)).shut = none) ∧ 15 < 16 ∧
      (meeting 4 15 0 (op * 2 ^ 60)).unitWord 4 0 15 64 = some (liveOf 4 15 0 (op * 2 ^ 60), op * 2 ^ 60) ∧
      bits (op * 2 ^ 60) 63 60 = op ∧
      ((meeting 4 15 0 (op * 2 ^ 60 + 1)).unitWord 4 0 15 64).isSome = true ∧
      (meeting 4 15 0 (op * 2 ^ 60 + 1)).routerPast 0 (attBent 15) 65 = false ∧
      (atSlot 65 (meeting 4 15 0 (op * 2 ^ 60 + 1))).routerPast 0 (attBent 15) 65 = true ∧
      (meeting 4 15 0 (op * 2 ^ 60)).isGiven 0 (attBent 15) 5 64 = false ∧
      ((meeting 4 15 0 (op * 2 ^ 60)).give 0 (attBent 15) 5 64).isGiven 0 (attBent 15) 5 64 = true := by
  decide +kernel

def gradW : Nat := 2 ^ 60 + 0xFFFFFF * 2 ^ 32 + 2 ^ 16
/-- A bank that flushes the last tile, and the fold of that tile. -/
def flushing : State :=
  { full with grads := [(unitKey 0 15, { GUnit.reset with bank1 := { GBank.reset with state := 2, tile := some 0xFFFFFF, sAddr := mem0, gAddr := mem0 + 2 ^ 20, recAddr := mem0 + 2 ^ 24 } })] }
def fold0 : Fold := ⟨unitKey 0 15, 0, 0xFFFFFF, mem0, mem0 + 2 ^ 20, mem0 + 2 ^ 24, 1, true⟩
def folding : State := { full with folds := [fold0] }
/-- The request's one row of the step is the position after its committed length. -/
def rosterRun : Run := { run0 with roster := [⟨0, 1, 0, true, 1, [], []⟩] }
def writing : State := running full rosterRun

theorem witness_GradientsAndKvEntriesAreWritten :
    ((atSlot 80 (meeting 5 15 0 gradW)).isUp ∧ (atSlot 80 (meeting 5 15 0 gradW)).unitWord 5 0 15 64 = some (liveOf 5 15 0 gradW, gradW) ∧
      bits gradW 63 60 = 1 ∧ bits gradW 31 16 = 1 ∧ ((atSlot 80 (meeting 5 15 0 gradW)).grad 0 15).activeBank.tile = none ∧
      (atSlot 80 (meeting 5 15 0 gradW)).routerPast 0 (gradBent 15) ((liveOf 5 15 0 gradW).fabSlot 64 + 16) = true) ∧
    (flushing.isUp ∧ (flushing.grad 0 15).otherBank.tile = some 0xFFFFFF ∧ (flushing.grad 0 15).otherBank.state = 2 ∧
      (flushing.grad 0 15).otherBank.sAddr % 4096 = 0) ∧
    (folding.isUp ∧ folding.folds.find? (fun f => f.queued && f.unit == unitKey 0 15 && f.tile == 0xFFFFFF) = some fold0 ∧
      folding.folds.any (fun h => h.queued && h.ctx == fold0.ctx && h.step < fold0.step) = false) ∧
    (writing.isUp ∧ writing.reqEnt 0 = some req0 ∧
      (writing.live req0.ctx).map (fun l => (l.r.roster.find? (fun r => r.idx == 0), l.p.img.attOf 0, l.r.inStep, (l.x.kv.group 0).home)) =
        some (some ⟨0, 1, 0, true, 1, [], []⟩, some ⟨0, 0, 0, 1, 8, 0x3F800000, 0, 0⟩, true, 0) ∧
      req0.length ≤ 4 ∧ 4 < req0.length + 1 ∧ (atSlot 8 writing).ringPast 0 31 (1 + (kv0.group 0).rowFlits) = true ∧
      (atSlot 8 writing).isUp) := by
  unfold State.isUp; repeat' apply And.intro
  all_goals decide +kernel

/-! ### Loads and calibration -/

def withArr (x : Arr) : State := { full with arrs := [(arrKey 0 0 3, x)] }
def req1 : LoadReq := weightReq (fl 0x0F [(0x28, 7), (0x30, mem0)])
/-- A live window with exactly the samples it takes, on the last data line. -/
def win0 : CalWin := ⟨16, 4, 0, 0, 0, 0, 0, 0, 0, 0⟩
def calOf (f : CalArr → CalArr) : State := withArr { Arr.reset with cal := f CalArr.reset }
def recal1 (c : CalBent) : State := { full with cals := [(bentKey 0 0, c)] }

theorem witness_PlanesLoadAndCalibrationRuns :
    ((meeting 6 0 0 (7 * 2 ^ 48 + 3 * 2 ^ 46)).isUp ∧
      ((meeting 6 0 0 (7 * 2 ^ 48 + 3 * 2 ^ 46)).live 0).bind (fun l => l.wordNow 6 0 0 0 64) = some (7 * 2 ^ 48 + 3 * 2 ^ 46) ∧
      ((meeting 6 0 0 (7 * 2 ^ 48 + 3 * 2 ^ 46)).arr 0 0 3) = Arr.reset ∧
      (meeting 6 0 0 (7 * 2 ^ 48 + 3 * 2 ^ 46)).gen run0.stepGen = some gen0) ∧
    ((withArr { Arr.reset with loading := some req1 }).isUp ∧ ((withArr { Arr.reset with loading := some req1 }).arr 0 0 3).loading = some req1 ∧
      req1.kv = none ∧ req1.crypt = none ∧ ((withArr { Arr.reset with loading := some req1 }).arr 0 0 3).waiting = [] ∧ fmtMx .int4 = false ∧
      full.devRange req1.addr (imageSize .mxint8hi + 4 * req1.resid) = true ∧ full.devRange 0 (imageSize .mxint8hi) = false) ∧
    (((withArr { Arr.reset with draining := true }).arr 0 0 3).draining = true ∧
      ((withArr { Arr.reset with draining := true }).arr 0 0 3).waiting = []) ∧
    (look none ((calOf (fun c => { c with wins := [(511, some win0)] })).arr 0 0 3).cal.wins 511 = some win0 ∧ 2 ^ win0.w ≤ win0.n ∧
      ((calOf (fun c => { c with wins := [(511, some win0)] })).arr 0 0 3).cal.closed = false ∧ isData 511 = true ∧ isData 512 = false) ∧
    (((calOf (fun c => { c with update := [⟨0, [(1087, 5)], []⟩] })).arr 0 0 3).cal.update = [⟨0, [(1087, 5)], []⟩]) ∧
    (2 ^ ((calOf (fun c => { c with rateLog := 20, rateN := 1048576 })).arr 0 0 3).cal.rateLog ≤
      ((calOf (fun c => { c with rateLog := 20, rateN := 1048576 })).arr 0 0 3).cal.rateN) ∧
    ((recal1 { CalBent.reset with trigger := 1, tick := 9 }).awake 0 = true ∧
      (recal1 { CalBent.reset with trigger := 1, tick := 9 }).recalMayStart 0 0 9 = true ∧
      (recal1 { CalBent.reset with trigger := 1, tick := 9 }).recalMayStart 0 0 8 = false) ∧
    ((recal1 { CalBent.reset with running := some 400 }).isUp ∧
      ((recal1 { CalBent.reset with running := some 400 }).calBent 0 0).running = some 400) := by
  unfold State.isUp; repeat' apply And.intro
  all_goals decide +kernel

/-! ### Gates -/

/-- The plan at the end of its step's last slot; at the gate there; and released, to align. -/
def running0 : State := running full run0
def gateRun (r : Run) : Run := { r with gate := some 4224, boundary := true, arrival := 10 }
def atGate : State := running full (gateRun run0)
def aligning : State := running full { gateRun run0 with released := true }
def liveR (r : Run) : Live := ⟨0, { ctx0 with run := some r }, r, plan0 [], sched0 []⟩

theorem witness_PlansPassGates :
    (running0.isUp ∧ running0.live 0 = some (liveR run0) ∧ running0.arrives (liveR run0) 4224 = true ∧ (liveR run0).stepSlots = 4224 ∧
      running0.diesAwake (liveR run0).p.img = true ∧ running0.fab.stalled = false ∧ run0.inStep = true ∧ run0.destroy = none ∧
      (liveR run0).x.faulted = none ∧ run0.strict = false ∧ run0.knotSeen = running0.fab.knots.version ∧
      running0.unmapped = [] ∧ running0.badSwap (liveR { run0 with gate := some 4224, boundary := true, swapped := [] }) = none) ∧
    (atGate.isUp ∧ atGate.live 0 = some (liveR (gateRun run0)) ∧ (liveR (gateRun run0)).waits (max atGate.time 10) = true ∧
      atGate.gateBreak (liveR (gateRun run0)) 10 = none ∧
      (atGate.gateHolds (liveR (gateRun run0)) 10 && (liveR (gateRun run0)).inTime 10) = true) ∧
    (aligning.isUp ∧ (aligning.live 0).map (fun l => (l.r.gate.isSome, l.r.released, decide (l.fabSlot l.slot ≤ 4224), aligning.routersBefore l 4288)) =
      some (true, true, true, true)) := by
  unfold State.isUp; repeat' apply And.intro
  all_goals decide +kernel

/-- The same gate with a term on the object of value 5: it holds at target 5, and not at 6. -/
def termed (target : Nat) : State :=
  let g : GateRec := ⟨1, 64, 0, 1, 0xFF, 0, [(0, 0)]⟩
  let p : PlanObj := { plan0 [] with
    img := { img0 [] with bindCount := 1, scheds := [{ sched0 [] with gates := [g] }] }, binds := [(hSync, target)] }
  running (full.setPlan 0 (some p)) (gateRun run0)

theorem witness_gate_terms :
    ((termed 5).live 0).map (fun l => (l.waits 10, l.hasTerms, l.r.destroy.isNone, (termed 5).gateHolds l 10)) =
      some (true, true, true, true) ∧
    ((termed 6).live 0).map (fun l => (l.waits 10, l.hasTerms, (termed 6).gateHolds l 10)) = some (true, true, false) := by
  repeat' apply And.intro
  all_goals decide +kernel

/-! ### Frames -/

/-- A paused request with one resident page in frame 3; the same page on its way out, or being fetched; and a far page. -/
def holder (kind : Nat) : Holder := ⟨0, 0, 0, req0.dir, kind, 0, false⟩
def paged (state kind : Nat) : State :=
  let s := withMem { full with req := { full.req with entries := [(0, some { req0 with state := Rq.paused })] } }
    [(req0.dir, leBytes 8 (DirEnt.toNat ⟨state, false, 0, 0, 3⟩))]
  let p : KvPool := { KvPool.reset with base := mem0, frames := 8, enable := true, free := 7, held := [(3, some (holder kind))], spilling := kind == 0, fetch := [(0, 0)] }
  ({ s with pools := s.pools.set 0 p } : State).wr (kvpPage 0) Reg.KVP_SPILL_CFG 0x80000000

theorem witness_FramesSpillAndComeBack :
    ((paged 1 0).isUp ∧ (paged 1 0).awake 0 = true ∧ ((paged 1 0).pool 0).spilling = true ∧
      (paged 1 0).fld (kvpPage 0) Reg.KVP_SPILL_CFG 31 31 = 1 ∧
      (paged 1 0).pausedOrder 0 = (0, { req0 with state := Rq.paused }) :: [] ∧
      ((paged 1 0).pagesOf req0).find? (fun e => e.2.2.2.state == 1 && e.2.2.2.die == 0) = some (0, 0, 0, ⟨1, false, 0, 0, 3⟩) ∧
      ((paged 1 0).ctx 0).bind (fun c => c.farSlot) = some 0 ∧ look none ((paged 1 0).pool 0).held 3 = some (holder 0)) ∧
    ((paged 2 1).isUp ∧ look none ((paged 2 1).pool 0).held 3 = some (holder 1) ∧ (holder 1).kind = 1) ∧
    ((paged 3 2).isUp ∧ (paged 3 2).awake 0 = true ∧ ((paged 3 2).pool 0).holds = [] ∧ (paged 3 2).fetchOrder 0 = [0] ∧
      (paged 3 2).mayFetch 0 ((paged 3 2).farEntries 0 req0).length = true) ∧
    ((paged 4 2).isUp ∧ look none ((paged 4 2).pool 0).held 3 = some (holder 2) ∧ (paged 4 2).reqEnt 0 = some { req0 with state := Rq.paused } ∧
      (paged 4 2).ctx 0 = some ctx0) := by
  unfold State.isUp; repeat' apply And.intro
  all_goals decide +kernel

/-! ### Invariants -/

/-- The demands at their two ends. -/
def paced : State := { up with pwr := { up.pwr with power := 1000, thermal := 1300, pacer := 1300 } }

theorem witness_PacerStaysSound : paced.pacerSound ∧ step paced = .next paced := by
  refine ⟨by unfold State.pacerSound Pwr.sound; decide, rfl⟩

def written1 : State := withMem up [(mem0 + 1, [7]), (mem0, [5])]

theorem witness_MemoryStaysSound : written1.memorySound ∧ step written1 = .next written1 := by
  refine ⟨by unfold State.memorySound; decide +kernel, rfl⟩

end Sys2Proof.Tests
end

