-- ==== Sys2Proof/Tests/Moves.lean ====
section
/-!
SUPPORT. States that meet the hypotheses of the statements about weight generations, channels, packets and ports, at the edges of
their ranges.
-/

set_option Elab.async false

namespace Sys2Proof.Tests

open Sys2Proof.Machine

/-! ### Weight generations -/

def fKey : Flight := fl 0x30 [(0x20, hCtx), (0x28, mem0), (0x30, 4944)]
def fVerify : Flight := fl 0x33 [(0x20, hGen0)]

theorem witness_WeightKeysAndVerification :
    ((run1 full fKey).started 32 0 0x30 fKey ∧ (run1 full fKey).checkHandle 0 .ctx (dHandle fKey.desc) = 0 ∧
      (run1 full fKey).ctx (hIdx (dHandle fKey.desc)) = some ctx0 ∧ dField fKey.desc 0x30 8 = 4944 ∧
      (run1 full fKey).devRange (dField fKey.desc 0x28 8) 4944 = true) ∧
    ((run1 full fVerify).started 32 0 0x33 fVerify ∧ (run1 full fVerify).checkHandle 0 .gen (dHandle fVerify.desc) = 0 ∧
      (run1 full fVerify).genAt (hIdx (dHandle fVerify.desc)) = some gen0 ∧ gen0.quarantined = false ∧ gen0.readyAt ≠ none ∧
      (run1 full fVerify).hashers.length = 4) := by
  unfold State.started State.isUp; repeat' apply And.intro
  all_goals decide +kernel

/-- A generation block with a manifest of the smallest length, and the buffers that a seal without shards needs. -/
def genBlk : Bytes := block 128 [(0x00, mem0 + 0x10000), (0x08, 3472), (0x0C, 96), (0x10, mem0 + 0x20000), (0x18, mem0 + 0x30000), (0x28, mem0 + 0x40000)]
def fReg : Flight := fl 0x31 [(0x20, hCtx), (0x24, hChan), (0x28, mem0), (0x30, 128)]
def sReg : State := withMem (run1 full fReg) [(mem0, genBlk), (mem0 + 0x10008, leBytes 2 3440)]
def fSeal : Flight := fl 0x32 [(0x20, hCtx), (0x24, hCtx), (0x28, mem0), (0x30, 128)]
def sSeal : State := withMem (run1 full fSeal) [(mem0, genBlk)]

theorem witness_WeightGenerationsBegin :
    (let r1 := sReg.unitRead mem0 128
     let k := GenBlock.mk r1.1.data
     let r2 := r1.2.unitRead k.manifest 128
     let r3 := r2.2.unitRead k.manifest 3440
     let r4 := r3.2.unitRead k.bundle k.bundleBuf
     sReg.started 32 0 0x31 fReg ∧ dField fReg.desc 0x28 8 = mem0 ∧ sReg.checkHandle 0 .ctx (dHandle fReg.desc) = 0 ∧
      sReg.checkHandle 0 .chan (dField fReg.desc 0x24 4) = 0 ∧ sReg.ctx (hIdx (dHandle fReg.desc)) = some ctx0 ∧
      dField fReg.desc 0x30 8 = 128 ∧ sReg.devRange mem0 128 = true ∧ Flag.isPoison r1.1.flags = false ∧ sReg.blockRanges k = true ∧
      128 ≤ k.manifestBuf ∧ Flag.isPoison r2.1.flags = false ∧ fieldB r2.1.data 8 8 = 3440 ∧ 3440 ≤ k.manifestBuf ∧
      Flag.isPoison r3.1.flags = false ∧ Flag.isPoison r4.1.flags = false) ∧
    (let r1 := sSeal.unitRead mem0 128
     let k := GenBlock.mk r1.1.data
     let r2 := r1.2.unitRead k.opt 104
     let img := (plan0 []).img
     sSeal.started 32 0 0x32 fSeal ∧ dField fSeal.desc 0x28 8 = mem0 ∧ sSeal.checkHandle 0 .ctx (dHandle fSeal.desc) = 0 ∧
      sSeal.checkHandle 0 .ctx (dField fSeal.desc 0x24 4) = 0 ∧ sSeal.ctx (hIdx (dHandle fSeal.desc)) = some ctx0 ∧ ctx0.sealOp = none ∧
      sSeal.primaryOf ctx0 = some (plan0 []) ∧ dField fSeal.desc 0x30 8 = 128 ∧ sSeal.devRange mem0 128 = true ∧
      Flag.isPoison r1.1.flags = false ∧ sSeal.blockRanges k = true ∧ sSeal.devRange k.opt 104 = true ∧
      Flag.isPoison r2.1.flags = false ∧
      r2.2.sealCode k (fieldB r2.1.data 0x20 8) (fieldB img.shardMap 4 4) (shardMapOf img.shardMap) = 0) := by
  unfold State.started State.isUp; repeat' apply And.intro
  all_goals decide +kernel

/-- A registration whose shards have not arrived, once fetched in vain. -/
def genWait : Gen := { gen0 with readyAt := none, shards := [{ shard0 with fails := 1 }] }
def sWait : State := run1 { full with gens := [(0, some genWait)] } (fl 0x31 [] .waiting)
/-- A seal for the context itself. -/
def genSeal : Gen := { gen0 with isSeal := true, readyAt := none, shards := [] }
def ctxSeal : Ctx := { ctx0 with sealOp := some ⟨0, (32, 0), genBlk, mem0, [], 0⟩ }
def sSealing : State := run1 { full with gens := [(0, some genSeal)], ctxs := [(0, some ctxSeal)] } (fl 0x32 [] .waiting)

theorem witness_ShardsArriveAndSealsEnd :
    (sWait.isUp ∧ sWait.genAt 0 = some genWait ∧ genWait.isSeal = false ∧ genWait.readyAt = none ∧
      genWait.shards.find? (fun r => r.shard == 0 && !r.passed) = some { shard0 with fails := 1 } ∧
      sWait.flight genWait.flight.1 genWait.flight.2 = some (fl 0x31 [] .waiting)) ∧
    (sSealing.isUp ∧ sSealing.ctx 0 = some ctxSeal ∧ (ctxSeal.sealOp.map (fun o => (o.gen, o.recv))) = some (0, 0) ∧
      sSealing.genAt 0 = some genSeal ∧ genSeal.ctx = 0 ∧ genSeal.readyAt = none ∧
      sSealing.flight genSeal.flight.1 genSeal.flight.2 = some (fl 0x32 [] .waiting)) := by
  unfold State.isUp; repeat' apply And.intro
  all_goals decide +kernel

/-- The hasher of die 0 at work in W2, the deepest state in which it hashes; and with a shard to hash once more. -/
def sHash : State :=
  let s := full.wr (wgtPage 0) Reg.WGT_HASH_CFG 1
  { s with wake := [⟨2, false, 0, 0⟩, Wake.reset, Wake.reset, Wake.reset] }
def sRehash : State := { sHash with hashers := [⟨[], some (hGen0, 0)⟩, Hasher.reset, Hasher.reset, Hasher.reset] }

theorem witness_HasherReadsShards :
    (sHash.isUp ∧ sHash.hashing 0 = true ∧ (sHash.hasher 0).rehash = none ∧ sHash.hashTodo 0 = (hGen0, 0) :: [] ∧
      sHash.hashTarget 0 (hGen0, 0) = some (gen0, { shard0 with passed := true }) ∧ 0 < sHash.hashers.length) ∧
    (sRehash.isUp ∧ sRehash.hashing 0 = true ∧ (sRehash.hasher 0).rehash = some (hGen0, 0) ∧
      sRehash.hashTarget 0 (hGen0, 0) = some (gen0, { shard0 with passed := true }) ∧ 0 < sRehash.hashers.length) := by
  unfold State.isUp; repeat' apply And.intro
  all_goals decide +kernel

/-! ### Channels and packets -/

def fChan : Flight := fl 0x40 [(0x20, mem0), (0x28, 64)]
def sChan : State := withMem (run1 full fChan) [(mem0, block 64 [(0x0C, 1), (0x10, mem0 + 0x100000), (0x18, 0x1000)])]
def fUnchan : Flight := fl 0x41 [(0x20, hChan)]

theorem witness_ChannelsOpenAndClose :
    (let r := sChan.unitRead mem0 64
     sChan.started 32 0 0x40 fChan ∧ dField fChan.desc 0x20 8 = mem0 ∧ dField fChan.desc 0x28 8 = 64 ∧ sChan.devRange mem0 64 = true ∧
      Flag.isPoison r.1.flags = false ∧ sChan.chanCode (newChan 0 0 (32, 0) r.1.data) = 0) ∧
    ((run1 full fUnchan).started 32 0 0x41 fUnchan ∧ (run1 full fUnchan).checkHandle 0 .chan (dHandle fUnchan.desc) = 0 ∧
      (run1 full fUnchan).chan (hIdx (dHandle fUnchan.desc)) = some chan0) := by
  unfold State.started State.isUp; repeat' apply And.intro
  all_goals decide +kernel

/-- A move that ends exactly at the end of the peer's window. -/
def fMove (op : Nat) : Flight := fl op [(0x20, hChan), (0x28, mem0), (0x30, 0x100000 - 8192), (0x38, 8192)]

theorem witness_TransfersBegin :
    (∀ op, op ∈ [0x42, 0x43] → (run1 full (fMove op)).tpCode (fMove op) (dField (fMove op).desc 0x28 8) = 0 ∧
      (run1 full (fMove op)).chan (hIdx (dHandle (fMove op).desc)) = some chan0 ∧ dField (fMove op).desc 0x38 8 ≠ 0) ∧
    (run1 full (fMove 0x42)).started 32 0 0x42 (fMove 0x42) ∧ (run1 full (fMove 0x43)).started 32 0 0x43 (fMove 0x43) := by
  unfold State.started State.isUp; repeat' apply And.intro
  all_goals decide +kernel

/-- A packet of a type to channel 0, whose payload ends at the end of the window. -/
def pkt0 (kind : Nat) : Pkt :=
  ⟨0x0123456789AB, kind, 7, 7, true, 0, 1, 7, 1, 0, 0, 0, 0x100000 - 64, 64, 0, List.replicate 64 1, [], true, 0, []⟩
/-- Channel 0 with a read in progress. -/
def reading : State :=
  run1 { full with chans := [(0, some { chan0 with ops := [⟨some (32, 0), 0, true, mem0, 64, 0⟩] })] } (fMove 0x43)

theorem witness_DataPacketsAct :
    (full.hears 0 3 (pkt0 3) chan0 ∧ seqFrom chan0.expect (pkt0 3).seq = 0 ∧ chan0.inWindow (pkt0 3) = true ∧ (pkt0 3).scribes = []) ∧
    (full.hears 0 4 (pkt0 4) chan0 ∧ seqFrom chan0.expect (pkt0 4).seq = 0 ∧ chan0.inWindow (pkt0 4) = true) ∧
    (let x := { chan0 with ops := [⟨some (32, 0), 0, true, mem0, 64, 0⟩] }
     reading.hears 0 5 (pkt0 5) x ∧ seqFrom x.expect (pkt0 5).seq = 0 ∧ (pkt0 5).scribes = [] ∧
      x.ops.find? (fun o => o.op == (pkt0 5).op && o.read) = some ⟨some (32, 0), 0, true, mem0, 64, 0⟩ ∧
      x.unacked.filter (covered (pkt0 5).ack) = [] ∧ reading.flight 32 0 = some (fMove 0x43)) := by
  unfold State.hears State.isUp; repeat' apply And.intro
  all_goals decide +kernel

/-- A packet whose payload ends one byte past the window. -/
theorem witness_BadPacketsAreKeptOut :
    full.isUp ∧ full.chan 0 = some chan0 ∧ chan0.inWindow { pkt0 3 with addr := 0x100000 - 63 } = false ∧
      seqFrom chan0.expect { pkt0 3 with seq := 1 }.seq ≠ 0 ∧ full.epochsHold { pkt0 4 with srcEpoch := 2 } = false ∧
      { pkt0 5 with crcOk := false }.crcOk = false := by
  unfold State.isUp; repeat' apply And.intro
  all_goals decide +kernel

def unpaired : Channel := { chan0 with paired := false, peerEpoch := 0 }
def sUnpaired : State := run1 { full with chans := [(0, some unpaired)] } (fl 0x40 [] .waiting)

/-- A channel in its last retry round, with two UP ports in its mask. -/
def twoPorts (c : Channel) : State :=
  { full with chans := [(0, some { c with mask := 3, rounds := c.retryLimit - 1 })]
              ports := [(0, ⟨2, true, 255, 0, [], 0, []⟩), (1, ⟨2, true, 255, 0, [], 0, []⟩)] }

theorem witness_ControlPacketsAct :
    (sUnpaired.isUp ∧ sUnpaired.portOk 0 = true ∧ sUnpaired.portUp 0 = true ∧ (pkt0 0).kind = 0 ∧ (pkt0 0).vc < 8 ∧
      (pkt0 0).grantVc < 8 ∧ (pkt0 0).crcOk = true ∧ sUnpaired.openMatch 0 (pkt0 0) = some 0 ∧ sUnpaired.chan 0 = some unpaired ∧
      unpaired.port = 0 ∧ unpaired.peerEpoch = 0) ∧
    (sUnpaired.hears 0 1 (pkt0 1) unpaired ∧ unpaired.paired = false ∧ sUnpaired.flight 32 0 = some (fl 0x40 [] .waiting)) ∧
    full.hears 0 2 (pkt0 2) chan0 ∧ full.hears 0 6 (pkt0 6) chan0 ∧
    (full.hears 0 7 (pkt0 7) chan0 ∧ chan0.rounds + 1 < chan0.retryLimit) ∧
    ((twoPorts chan0).hears 0 7 (pkt0 7) { chan0 with mask := 3, rounds := chan0.retryLimit - 1 } ∧
      chan0.unacked.filter (covered (pkt0 7).ack) = [] ∧ (twoPorts chan0).nextPort 3 0 = some 1) := by
  unfold State.hears State.isUp; repeat' apply And.intro
  all_goals decide +kernel

/-- Channel 0 with a packet to send, and with an unacknowledged one that has waited for its timeout. -/
def sending : Channel := { chan0 with queued := [pkt0 3], unacked := [pkt0 3], unackedRx := 1, rounds := 6 }
def sSending : State := { full with chans := [(0, some sending)] }

theorem witness_ChannelsSendAndTimeOut :
    (sSending.isUp ∧ sSending.chan 0 = some sending ∧ sending.paired = true ∧ sSending.portUp sending.port = true ∧
      sendable sending sending.queued [] = some (pkt0 3)) ∧
    (0 < sending.unackedRx ∧ sending.unacked ≠ [] ∧ sending.progress + sending.retryTimeout ≤ 1000 ∧
      sending.rounds + 1 < sending.retryLimit) ∧
    ((twoPorts sending).isUp ∧ (twoPorts sending).chan 0 = some { sending with mask := 3, rounds := sending.retryLimit - 1 } ∧
      (twoPorts sending).portUp 0 = true ∧ (twoPorts sending).nextPort 3 0 = some 1) ∧
    (sUnpaired.isUp ∧ sUnpaired.chan 0 = some unpaired ∧ unpaired.paired = false ∧ unpaired.openBy ≤ 1000 ∧
      sUnpaired.flight 32 0 = some (fl 0x40 [] .waiting)) := by
  unfold State.isUp; repeat' apply And.intro
  all_goals decide +kernel

/-! ### Ports -/

/-- The last engine and its ports, in training, dark or retired. -/
def lastPorts (light : Bool) (st : Nat) : State :=
  { full with optics := [(15, ⟨light, 1700⟩)], ports := [(30, ⟨st, true, 255, 128, [2, 0, 0, 0, 0, 0, 0, 0], 0, []⟩)] }

theorem witness_LightAndTrainingMovePorts :
    ((lastPorts true 2).isUp ∧ (lastPorts true 2).opticOk 15 = true ∧ ((lastPorts true 2).optic 15).light = true ∧ (1499 : Int) < 1500) ∧
    ((lastPorts false 5).isUp ∧ (lastPorts false 5).opticOk 15 = true ∧ ((lastPorts false 5).optic 15).light = false ∧ (1600 : Int) ≤ 1600) ∧
    ((lastPorts true 1).portOk 30 = true ∧ ((lastPorts true 1).port 30).state = 1) ∧
    ((lastPorts true 1).takesWrites (portPage 31) ∧ ((lastPorts true 1).port 31).state ≠ 6) ∧
    ((lastPorts true 6).takesWrites (portPage 30)) ∧
    ((lastPorts true 2).portOk 30 = true ∧ (lastPorts true 2).portUp 30 = true ∧ (lastPorts true 2).takesFrame 30 [] false = false) := by
  unfold State.takesWrites State.isUp; repeat' apply And.intro
  all_goals decide +kernel

theorem witness_FaultyLanesAreRetired :
    ((lastPorts true 2).isUp ∧ (lastPorts true 2).portRuns 30 = true ∧ bitAt ((lastPorts true 2).port 30).retired 6 = false) ∧
    ((lastPorts true 3).isUp ∧ (lastPorts true 3).portRuns 30 = true) := by
  unfold State.isUp; repeat' apply And.intro
  all_goals decide +kernel

/-- A pool that has lost a frame, and a cut list that has lost an entry. -/
def lostFrame : State := { full with pools := (full.pools.set 3 { KvPool.reset with frames := 2, free := 1 }) }
def lostEntry : State := { full with req := { full.req with live := 2 } }

theorem witness_CensusesAuditTheirCounts :
    (full.takesWrites (diePage .kvp 3) ∧ (full.pool 3).sound = true) ∧
    (lostFrame.takesWrites (diePage .kvp 3) ∧ (lostFrame.pool 3).sound = false) ∧
    (full.takesWrites reqPage ∧ full.reqRows = []) ∧ (lostEntry.takesWrites reqPage ∧ lostEntry.reqRows ≠ []) ∧
    (full.takesWrites (portPage 31) ∧ full.portSound 0 = true) ∧
    ({ full with chans := [(0, some { chan0 with txAvail := List.replicate 8 63 })] } : State).portSound 0 = false := by
  unfold State.takesWrites State.isUp; repeat' apply And.intro
  all_goals decide +kernel

end Sys2Proof.Tests
end

