-- ==== Sys2Proof/Tests/Package.lean ====
section
/-!
SUPPORT. States that meet the hypotheses of the statements about the fabric, memory, power, registers, snapshots, the monitor and
bring-up, at the edges of their ranges.
-/

set_option Elab.async false

namespace Sys2Proof.Tests

open Sys2Proof.Machine

/-! ### Fabric and memory -/

/-- A plan that runs one ring word of port 31 of die 3 in step slot 128, after its two 64-slot segments. -/
def ringState (w : Nat) : State := atSlot 64 (running { full with plans := [(0, some (plan0 [⟨7, 3, 31, 0, [(0, w)]⟩]))] } run0)
def ringLive (w : Nat) : Live :=
  ⟨0, { ctx0 with run := some run0 }, run0, plan0 [⟨7, 3, 31, 0, [(0, w)]⟩], sched0 [⟨7, 3, 31, 0, [(0, w)]⟩]⟩
def ringW (op : Nat) : Nat := op * 2 ^ 60 + 128

theorem witness_RoutersAndRings :
    (up.isUp ∧ up.routerReady 3 127 = true ∧ unitOutputs 127 = [2, 4, 5] ∧ unitOutputs 15 = [0, 4, 5]) ∧
    ((ringState (ringW 1)).isUp ∧ (ringState (ringW 1)).ringWord 0 3 31 64 = some (ringLive (ringW 1), ringW 1) ∧ ringOp (ringW 1) = 1 ∧
      (ringLive (ringW 1)).ringPlace 3 31 64 (ringW 1) = none ∧ (ringState (ringW 1)).ringFree 3 31 ((ringLive (ringW 1)).fabSlot 64) = true) ∧
    ((ringState (ringW 2)).isUp ∧ (ringState (ringW 2)).ringWord 0 3 31 64 = some (ringLive (ringW 2), ringW 2) ∧ ringOp (ringW 2) = 2 ∧
      (ringLive (ringW 2)).ringPlace 3 31 64 (ringW 2) = none ∧ (ringLive (ringW 2)).fabSlot 64 = 64 ∧
      (ringState (ringW 2)).ringPast 3 31 65 = true ∧ Flag.isPoison (flitMarks ((ringState (ringW 2)).ringCome 3 31 64 false)) = false) := by
  unfold State.isUp; repeat' apply And.intro
  all_goals decide +kernel

def stalled : State := { up with fab := { up.fab with stalled := true, resumeAt := 128 } }

theorem witness_FabricStallsAndLosesModules :
    (up.isUp ∧ up.dieOk 3 = true ∧ (up.knotDie 3).routers.contains 127 = false ∧ up.fab.stalled = false ∧ 3 < up.fab.knots.dies.length) ∧
    (stalled.isUp ∧ stalled.fab.stalled = true) ∧
    (up.hasBridge 3 = true ∧ bitAt (nth 63 up.fab.modules 3) 5 = true ∧ 3 < up.fab.modules.length) ∧
    (bitAt (nth 15 up.fab.hostModules 3) 3 = true ∧ 3 < up.fab.hostModules.length) := by
  unfold State.isUp; repeat' apply And.intro
  all_goals decide +kernel

/-- The patrol on, at the last codeword of the last stack; a region scrub there; a map-out there; and an injection at its last byte. -/
def patrolled : State :=
  let s := (up.wr (memPage 3) Reg.MEM_SCRUB_CFG 0x80000000).wr64 (memPage 3) (posOff 7) (stackEnd 7 - 64)
  { s with mem := { s.mem with regionScrub := [(7, some (stackEnd 7 - 64))], copying := [(stackEnd 7 - 1) / 4096] } }
def injecting : State := up.wr64 (memPage 3) Reg.MEM_INJECT_ADDR (stackEnd 7 - 1)

theorem witness_MemoryIsScrubbedAndMappedOut :
    (patrolled.isUp ∧ patrolled.stackOk 7 = true ∧ patrolled.selfRefresh 7 = false ∧
      (patrolled.rd (memPage 3) Reg.MEM_SCRUB_CFG).getLsbD 31 = true ∧ patrolled.patrolPos 7 + 64 = stackEnd 7 ∧
      patrolled.mem.cwBad (patrolled.patrolPos 7 / 64) = false) ∧
    (look none patrolled.mem.regionScrub 7 = some (stackEnd 7 - 64) ∧ patrolled.regionBad (stackEnd 7 - 64) 7 = []) ∧
    patrolled.mem.copying.contains ((stackEnd 7 - 1) / 4096) = true ∧
    (let a := injecting.rd64 (memPage 3) Reg.MEM_INJECT_ADDR / 64 * 64
     injecting.takesWrites (memPage 3) ∧ injecting.populated a 64 = true ∧ dieOf a = 3 ∧ injecting.stackOk (stackOf a) = true ∧
      injecting.mem.synd (a / 64) = 0) := by
  unfold State.takesWrites State.isUp; repeat' apply And.intro
  all_goals decide +kernel

/-! ### Power, temperature, trips -/

/-- Die 3 with a latency that allows W4 exactly, and nothing that keeps it awake; and die 3 in W4, at rest and waking. -/
def idle4 : State := up.wr (pwrPage 3) Reg.PWR_WAKE_LAT 40000
def asleep (waking : Bool) : State := { up with wake := [Wake.reset, Wake.reset, Wake.reset, ⟨4, waking, 7, 3⟩] }

theorem witness_DiesSleepAndWake :
    (idle4.isUp ∧ idle4.dieOk 3 = true ∧ 3 < idle4.wake.length ∧ (idle4.wakeOf 3).waking = false ∧ idle4.qualified 3 = 4) ∧
    ((asleep false).isUp ∧ (asleep false).dieOk 3 = true ∧ 3 < (asleep false).wake.length ∧ ((asleep false).wakeOf 3).waking = false ∧
      ((asleep false).wakeOf 3).state ≠ 0 ∧ (asleep false).reachable (pwrPage 3) = true) ∧
    (allowedState 3 1999 = 2 ∧ allowedState 3 2000 = 3 ∧ allowedState 0 40000 = 2) ∧
    ((asleep true).isUp ∧ (asleep true).dieOk 3 = true ∧ 3 < (asleep true).wake.length ∧ ((asleep true).wakeOf 3).waking = true ∧
      (asleep true).reachable (pwrPage 3) = true) := by
  unfold State.isUp; repeat' apply And.intro
  all_goals decide +kernel

/-- At the peak limit, one above it, and at both ends of the demand. -/
theorem witness_PowerIsPaced :
    up.boot.phase ≠ 0 ∧ up.shut = none ∧ up.peakLimit = 3000 ∧ up.overPower 2600 0 = false ∧
      min 1300 (1300 + 25) = 1300 ∧ max 1000 (1000 - 25) = 1000 := by
  repeat' apply And.intro
  all_goals decide +kernel

/-- The highest sensor of the package at a temperature. -/
def warm (x : Int) : State :=
  { up with sensors := up.sensors.set 3 (List.replicate 144 Sensor.reset ++ [⟨x, x, false, false⟩]) }

theorem witness_SensorsPaceAndWarn :
    (up.boot.phase ≠ 0 ∧ up.shut = none ∧ (warm 1520).anyAbove 1520 = true ∧ (warm 1519).anyAbove 1520 = false ∧
      (warm 1488).anyAbove 1488 = true ∧ (warm 1487).anyAbove 1488 = false) ∧
    (up.pwr.inputWarn = false ∧ up.pwr.coolantWarn = false ∧ up.dieOk 3 = true) ∧
    (4599 < 4600 ∧ 5400 < 5401 ∧ (560 : Int) < 561 ∧ 4600 ≤ 4600 ∧ 5400 ≤ 5400 ∧ (560 : Int) ≤ 560) := by
  repeat' apply And.intro
  all_goals decide +kernel

theorem witness_SensorsAreReadAndChecked :
    up.boot.phase ≠ 0 ∧ up.shut = none ∧ up.sensors.length = 4 ∧ up.senses 3 144 = true ∧ (asleep false).senses 3 143 = false ∧
      (asleep false).boot.phase ≠ 0 ∧ (asleep false).shut = none ∧ 2 ≤ up.boot.phase := by
  repeat' apply And.intro
  all_goals decide +kernel

def trip0 : Trip := ⟨1, 5, 2, 0, 0, 0, 0, [0, 0, 0, 0], 4399, 0, 1000⟩
def dying (n : Nat) : State := { up with shut := some ⟨n, trip0, 5⟩, boot := { up.boot with phase := 1 } }

theorem witness_PackageShutsDown :
    (2 ≤ up.boot.phase ∧ up.shut = none ∧ 4399 < 4400 ∧ 5600 < 5601) ∧
    ((dying 0).shut = some ⟨0, trip0, 5⟩ ∧ (dying 1).shut = some ⟨1, trip0, 5⟩ ∧ (dying 2).shut = some ⟨2, trip0, 5⟩ ∧
      (dying 3).shut = some ⟨3, trip0, 5⟩) ∧
    ((dying 3).boot.phase ≠ 0 ∧ up.boot.phase ≠ 0) := by
  repeat' apply And.intro
  all_goals decide +kernel

/-- The latest record written, with the hottest sensor just below 85 degrees. -/
def tripped (x : Int) : State := { warm x with flash := { up.flash with trips := [trip0], tripSeq := 1, acked := false } }

theorem witness_TripAcknowledgementIsGuarded :
    (tripped 1359).takesWrites (thmPage 3) ∧ (tripped 1359).anyAbove 1360 = false ∧ (tripped 1360).takesWrites (thmPage 3) ∧
      (tripped 1360).anyAbove 1360 = true ∧ (tripped 1359).flash.tripSeq = 1 ∧ (tripped 1359).tripLatched = true := by
  unfold State.takesWrites State.isUp; repeat' apply And.intro
  all_goals decide +kernel

/-! ### Registers and host memory -/

/-- The window of the last bent's page. -/
def bentWindow : Nat := windowBase + 3 * windowBytes + 0x1000000 + 127 * 0x10000 + 0x40

theorem witness_RegistersAreReadAndWritten :
    (up.hostReaches windowBase ∧ windowBase % 4 = 0 ∧ targetOf windowBase = .reg (diePage .dev 0) 0 ∧
      up.pagePresent (diePage .dev 0) = true ∧ (up.wakeOf 0).state = 0) ∧
    (targetOf bentWindow = .reg (unitPage .bent 3 127) 0x40 ∧ aligned bentWindow 8 = true ∧ up.hostReaches bentWindow ∧
      up.pagePresent (unitPage .bent 3 127) = true ∧ (up.wakeOf 3).state = 0) ∧
    (aligned (windowBase + 2) 4 = false ∧ aligned windowBase 4 = true) ∧
    (let p := wgtPage 3
     up.takesWrites p ∧ p.blk = .wgt ∧ (regWord p.blk Reg.WGT_HASH_CFG).isSome = true ∧ 0x40 ≤ Reg.WGT_HASH_CFG ∧
      is64 p.blk Reg.WGT_HASH_CFG = false ∧ is64 p.blk (Reg.WGT_HASH_CFG - 4) = false ∧
      (regWord p.blk Reg.PAGE_IRQ_STAT).isSome = true) ∧
    (up.hostReaches (windowBase + 3 * windowBytes) ∧ up.dieOk 3 = true ∧ 2047 < 2048) := by
  unfold State.hostReaches State.takesWrites State.isUp; repeat' apply And.intro
  all_goals decide +kernel

/-- The last bytes of the last stack, and the first byte past them. -/
theorem witness_HostReachesMemory :
    (up.hostReaches (stackEnd 7 - 8) ∧ up.populated (stackEnd 7 - 8) 8 = true ∧ (up.wakeOf (dieOf (stackEnd 7 - 8))).state < 3 ∧
      (∀ c, c ∈ cwsOf (stackEnd 7 - 8) 8 → up.mem.synd c = 0)) ∧
    (up.hostReaches (stackEnd 7 - 7) ∧ up.populated (stackEnd 7 - 7) 8 = false) ∧
    (up.hostReaches (windowBase + 3 * windowBytes) ∧ up.dieOk 3 = true) := by
  unfold State.hostReaches State.isUp; repeat' apply And.intro
  all_goals decide +kernel

/-- A bent whose first ledger tile holds an open row. -/
def held0 : State := { up with bents := [(bentKey 3 127, { Bent.reset with rows := [(0, { LRow.closed with isOpen := true })] })] }

theorem witness_SoftwareActsOnUnits :
    (up.takesWrites (unitPage .bent 3 127) ∧ 0x1FFFFC % 4 = 0 ∧ 0x1FFFFC < 0x200000) ∧
    (held0.takesWrites (unitPage .bent 3 127) ∧ (held0.bent 3 127).held ((ledgBase - ledgBase) / 0x10000) = true) ∧
    (up.takesWrites (arrPage .arr 3 127 3) ∧ (up.arr 3 127 3).retired = 0 ∧ up.owner 3 127 = none ∧
      (up.knotDie 3).arrays.contains (4 * 127 + 3) = false ∧ 3 < up.fab.knots.dies.length) ∧
    (full.takesWrites (arrPage .arr 0 0 3) ∧ (full.arr 0 0 3).retired = 0 ∧ full.owner 0 0 ≠ none) ∧
    (up.takesWrites (calPage 3 127) ∧ (up.calBent 3 127).running = none ∧ up.bentIsKnot 3 127 = false ∧
      bitAt (up.calBent 3 127).trigger 2 = false) ∧
    (up.takesWrites (fabPage 3) ∧ isShareOff Reg.FAB_RING_SHARE = true ∧ up.shareRefused 3 Reg.FAB_RING_SHARE 7 = true ∧
      up.shareRefused 3 Reg.FAB_RING_SHARE 15 = false) ∧
    up.takesWrites (fabPage 0) ∧ up.takesWrites (diePage .plan 3) := by
  unfold State.takesWrites State.isUp; repeat' apply And.intro
  all_goals decide +kernel

/-! ### Snapshots and the monitor -/

def snapping : State := { up with snap := { up.snap with busy := true, seq := 1, slot := 64, waiters := [.software] } }
/-- Every page shows the sequence number of the snapshot. -/
def allCopied : State := { up with snap := { up.snap with busy := true, waiters := [.resume] } }
/-- Every router has passed the named slot. -/
def passed : State := { snapping with fab := { snapping.fab with base := 65 } }

theorem witness_SoftwareRequestsSnapshots :
    up.takesWrites snapPage ∧ up.snap.busy = false ∧ snapping.takesWrites snapPage ∧ snapping.snap.busy = true := by
  unfold State.takesWrites State.isUp; repeat' apply And.intro
  all_goals decide +kernel

theorem witness_SnapshotsAreCopiedAndAudited :
    (up.takesWrites logPage ∧ up.isUp ∧ up.fwRuns = true) ∧
    (passed.isUp ∧ passed.mayCopy (calPage 3 127) = true ∧ passed.mayCopy quePage = true) ∧
    (allCopied.isUp ∧ allCopied.snap.busy = true ∧ allCopied.snap.queued = [] ∧ allCopied.allCopied = true) ∧
    (snapping.isUp ∧ snapping.snap.busy = true ∧ snapping.snap.queued = [] ∧ snapping.allCopied = false) := by
  unfold State.takesWrites State.isUp; repeat' apply And.intro
  all_goals decide +kernel

theorem witness_MonitorCommandsAnswer :
    (up.isUp ∧ up.fwRuns = true ∧ up.monBusy = false) ∧
    (targetOf (windowBase + 2) = .reg (diePage .dev 0) 2 ∧ aligned (windowBase + 2) 4 = false ∧ aligned windowBase 8 = true ∧ up.hostReaches windowBase) ∧
    (mem0 % 4096 = 0 ∧ up.populated mem0 4096 = true ∧ (up.wakeOf (dieOf mem0)).state < 3 ∧ up.dieOk 3 = true ∧ up.portOk 31 = true) := by
  unfold State.hostReaches State.isUp; repeat' apply And.intro
  all_goals decide +kernel

/-! ### Bring-up -/

def booting (n : Nat) : State := { State.reset with boot := { Boot.reset with phase := 2, step := n, mcState := 1 } }
def env0 : BootEnv := ⟨true, [], 0xFFFFFFFF, List.replicate 16 1700, [], [], [], [], 0, 0⟩
def romMode : State := { booting 2 with boot := { (booting 2).boot with mcState := 2, failed := true } }
def updating : State := { up with ident := { up.ident with updating := some (3, mem0), attesting := some (mem0, 0) } }
def logged : State := { up with log := { up.log with buffer := [⟨1, 0, 0, 0, 0, none, 0, 0, 0, 0⟩] } }

theorem witness_PackageComesUp :
    State.reset.boot.phase = 0 ∧
    (∀ n, n ∈ [1, 2, 3, 4, 5, 6, 7, 8] → (booting n).boot.phase = 2 ∧ (booting n).boot.failed = false ∧ (booting n).boot.step = n) ∧
    (env0.ok = true ∧ (booting 8).shut = none) ∧ (romMode.boot.mcState = 2 ∧ romMode.boot.phase = 2) ∧
    (up.takesWrites secPage ∧ up.fwRuns = true) ∧
    (updating.isUp ∧ updating.fwRuns = true ∧ updating.shut = none ∧ updating.ident.updating = some (3, mem0) ∧
      updating.ident.attesting = some (mem0, 0) ∧ updating.populated mem0 64 = true) ∧
    (logged.boot.phase ≠ 0 ∧ logged.fwRuns = true ∧ logged.log.buffer = [⟨1, 0, 0, 0, 0, none, 0, 0, 0, 0⟩] ∧
      logged.log.ring.length < ringRecords) := by
  unfold State.takesWrites State.isUp; repeat' apply And.intro
  all_goals decide +kernel

end Sys2Proof.Tests
end

