-- ==== Sys2Proof/Tests/Queues.lean ====
section
/-!
SUPPORT. States that meet the hypotheses of the statements about queues, descriptors, contexts, plans and copies, at the edges of
their ranges.
-/

set_option Elab.async false

namespace Sys2Proof.Tests

open Sys2Proof.Machine

theorem witness_StepRunsTheFrontCommand :
    ({ full with pending := [.nop 32 0] } : State).pending = .nop 32 0 :: [] ∧ full.pending = [] := ⟨rfl, rfl⟩

def fAdd0 (n : Nat) : Flight := fl 0x01 [(0x20, hSync), (0x28, n)]
def fSet0 : Flight := fl 0x02 [(0x20, hSync), (0x28, 2 ^ 64 - 1)]

/-- The sum at its last value that is taken, 2^64 - 1, and at the first that is refused. -/
theorem witness_NopAndSyncObjectsUpdate :
    (run1 full (fl 0 [])).started 32 0 0x00 (fl 0 []) ∧
    ((run1 full (fAdd0 (2 ^ 64 - 6))).started 32 0 0x01 (fAdd0 (2 ^ 64 - 6)) ∧ full.checkHandle 0 .sync hSync = 0 ∧
      dHandle (fAdd0 (2 ^ 64 - 6)).desc = hSync ∧ full.sync 0 + dField (fAdd0 (2 ^ 64 - 6)).desc 0x28 8 = 2 ^ 64 - 1) ∧
    ((run1 full fSet0).started 32 0 0x02 fSet0 ∧ (run1 full fSet0).checkHandle 0 .sync (dHandle fSet0.desc) = 0) ∧
    ((run1 full (fAdd0 (2 ^ 64 - 5))).started 32 0 0x01 (fAdd0 (2 ^ 64 - 5)) ∧
      (run1 full (fAdd0 (2 ^ 64 - 5))).checkHandle 0 .sync hSync = 0 ∧ dHandle (fAdd0 (2 ^ 64 - 5)).desc = hSync ∧
      full.sync 0 + dField (fAdd0 (2 ^ 64 - 5)).desc 0x28 8 = 2 ^ 64) := by
  unfold State.started State.isUp; repeat' apply And.intro
  all_goals decide +kernel

/-- A submission queue whose head is a descriptor in memory; the completion queue has one record free. -/
def cqFull : Queue := { comq with tail := 15 }
def sqOne : Queue := { subq with tail := 1 }
def headed (d : Bytes) : State :=
  withMem { full with que := { full.que with queues := [(32, some sqOne), (33, some cqFull)] } } [(subq.base, d)]

def fNew : Flight := fl 0x04 [(0x28, 7)]
def fDel : Flight := fl 0x05 [(0x20, hSync)]
/-- SYNC_HOST_HANDLE names the object, and SYNC_HOST_VALUE holds the largest number that its value of 5 can take on. -/
def hostSync : State := (full.wr syncPage Reg.SYNC_HOST_HANDLE (BitVec.ofNat 32 hSync)).wr64 syncPage Reg.SYNC_HOST_VALUE (2 ^ 64 - 6)

theorem witness_SyncObjectsComeAndGo :
    ((run1 full fNew).started 32 0 0x04 fNew ∧ (run1 full fNew).hasFreeSlot .sync = true) ∧
    ((run1 full fDel).started 32 0 0x05 fDel ∧ (run1 full fDel).checkHandle 0 .sync (dHandle fDel.desc) = 0 ∧
      (run1 full fDel).syncInUse fDel (dHandle fDel.desc) = false) ∧
    (let s := headed (desc 0x03 [(0x20, hSync), (0x28, 5)])
      let d := desc 0x03 [(0x20, hSync), (0x28, 5)]
      s.headDesc sqOne = d ∧ s.headPoisoned sqOne = false ∧ s.waitCode 32 (s.seeWait 32 sqOne d) d = 0 ∧
      s.headHeld 32 (s.seeWait 32 sqOne d) d = false ∧ s.sync 0 = 5) ∧
    (hostSync.takesWrites syncPage ∧ hostSync.checkOwn .sync hostSync.hostHandle = 0 ∧
      hostSync.sync (hIdx hostSync.hostHandle) < 2 ^ 64 ∧ hostSync.sync (hIdx hostSync.hostHandle) + hostSync.hostValue = 2 ^ 64 - 1) := by
  unfold State.started State.takesWrites State.isUp; repeat' apply And.intro
  all_goals decide +kernel

def fQue : Flight := fl 0x06 [(0x20, mem0 + 0x2000), (0x28, 16), (0x2C, mkHandle .que 1 33), (0x30, mem0 + 0x800000)]
def fQdel (i : Nat) : Flight := fl 0x07 [(0x20, mkHandle .que 1 i)]
def freeCq : State := run1 { full with req := ReqSt.reset, que := { full.que with queues := [(33, some comq)] } } { fQdel 33 with q := 0, cq := 16 }
def busyQ : State :=
  { full with que := { full.que with flights := [{ fQdel 32 with q := 0 }, fl 0 []] } }

theorem witness_QueuesComeAndGo :
    ((run1 full fQue).started 32 0 0x06 fQue ∧ (run1 full fQue).queueCreateCode 0 fQue.desc = 0) ∧
    (freeCq.started 0 0 0x07 { fQdel 33 with q := 0, cq := 16 } ∧ freeCq.checkHandle 0 .que (dHandle (fQdel 33).desc) = 0 ∧
      hIdx (dHandle (fQdel 33).desc) = 33 ∧ freeCq.queue 33 = some comq ∧ freeCq.cqNamed 33 = false) ∧
    ((run1 full (fQdel 32)).started 32 0 0x07 (fQdel 32) ∧ (run1 full (fQdel 32)).checkHandle 0 .que (dHandle (fQdel 32).desc) = 0 ∧
      hIdx (dHandle (fQdel 32).desc) = 32 ∧ (run1 full (fQdel 32)).queue 32 = some subq ∧
      (run1 full (fQdel 32)).que.flights.any (fun g => g.q == 32 && !isFlight 32 0 g) = false) ∧
    (busyQ.started 0 0 0x07 { fQdel 32 with q := 0 } ∧ busyQ.checkHandle 0 .que (dHandle (fQdel 32).desc) = 0 ∧
      busyQ.queue 32 = some subq ∧ busyQ.que.flights.any (fun g => g.q == 32 && !isFlight 0 0 g) = true) := by
  unfold State.started State.isUp; repeat' apply And.intro
  all_goals decide +kernel

def dWait (v : Nat) : Bytes := desc 0x03 [(0x20, hSync), (0x28, v), (0x30, 10)]

/-- The target met exactly, at the deadline; and missed by one, at the deadline. -/
theorem witness_DescriptorsAreConsumed :
    ((headed (desc 0 [])).headReady 32 sqOne cqFull ∧ dOpcode ((headed (desc 0 [])).headDesc sqOne) ≠ 3 ∧ sqOne.outcome = none ∧
      (headed (desc 0 [])).headCode 32 sqOne ((headed (desc 0 [])).headDesc sqOne) = 0) ∧
    ((headed (dWait 5)).headReady 32 sqOne cqFull ∧ (headed (dWait 5)).headDesc sqOne = dWait 5 ∧ dOpcode (dWait 5) = 3 ∧
      (headed (dWait 5)).waitCode 32 sqOne (dWait 5) = 0 ∧ sqOne.outcome = none ∧
      dField (dWait 5) 0x28 8 ≤ (headed (dWait 5)).sync (hIdx (dHandle (dWait 5))) ∧ 10 ≤ dField (dWait 5) 0x30 8) ∧
    ((headed (dWait 6)).headReady 32 sqOne cqFull ∧ (headed (dWait 6)).headDesc sqOne = dWait 6 ∧ dOpcode (dWait 6) = 3 ∧
      (headed (dWait 6)).waitCode 32 sqOne (dWait 6) = 0 ∧ sqOne.outcome = none ∧
      (headed (dWait 6)).sync (hIdx (dHandle (dWait 6))) < dField (dWait 6) 0x28 8 ∧ dField (dWait 6) 0x30 8 ≠ 0 ∧
      dField (dWait 6) 0x30 8 ≤ 10) := by
  unfold State.headReady State.isUp; repeat' apply And.intro
  all_goals decide +kernel

/-- A signal whose sum is the last one taken. -/
def fDone : Flight := fl 0x00 [(1, 2), (12, hSync), (24, 2 ^ 64 - 6)] .done

theorem witness_DescriptorsComplete :
    (run1 full fDone).isUp ∧ (run1 full fDone).flight 32 0 = some fDone ∧ fDone.phase = .done ∧
      (run1 full fDone).queue 33 = some comq ∧ (∀ x, (run1 full fDone).queue 32 = some x → x.stopping = false) ∧
      dSignalAfter fDone.desc = true ∧ (run1 full fDone).checkHandle 0 .sync (dSignalHandle fDone.desc) = 0 ∧
      (run1 full fDone).sync 0 + dSignalAdd fDone.desc = 2 ^ 64 - 1 := by
  refine ⟨by unfold State.isUp; decide, by decide +kernel, rfl, by decide +kernel, fun x h => ?_, by decide +kernel⟩
  have e : (run1 full fDone).queue 32 = some subq := by decide +kernel
  rw [h] at e; cases e; rfl

/-- A doorbell that fills the ring exactly, and one past it. -/
theorem witness_DoorbellsRing :
    full.takesWrites quePage ∧ full.doorbellCode (mkHandle .que 1 32) 16 = 0 ∧ full.queue 32 = some subq ∧
      full.doorbellCode (mkHandle .que 1 32) 17 ≠ 0 ∧
      bits (BitVec.ofNat 64 (mkHandle .que 1 32 + 17 * 2 ^ 32)).toNat 31 0 = mkHandle .que 1 32 ∧
      bits (BitVec.ofNat 64 (mkHandle .que 1 32 + 17 * 2 ^ 32)).toNat 63 32 = 17 := by
  unfold State.takesWrites State.isUp; repeat' apply And.intro
  all_goals decide +kernel

/-- Tenant 15, the last one, with its admin queues enabled. -/
def adminOn : State :=
  let s := full.wr quePage Reg.QUE_ADMIN_SEL 15
  { s with que := { s.que with adminEn := [(15, true)], queues := (15, some subq) :: (31, some comq) :: s.que.queues } }

theorem witness_AdminQueuesEnableAndDisable :
    (full.takesWrites quePage ∧ look false full.que.adminEn full.adminSel = false ∧ full.adminGone full.adminSel = true) ∧
    (adminOn.takesWrites quePage ∧ adminOn.adminSel = 15 ∧ look false adminOn.que.adminEn adminOn.adminSel = true ∧
      adminOn.queue adminOn.adminSel = some subq) := by
  unfold State.takesWrites State.isUp; repeat' apply And.intro
  all_goals decide +kernel

/-- One whole block to the block after it. -/
def fCopy : Flight := fl 0x10 [(0x20, mem0), (0x28, mem0 + 4096), (0x30, 4096), (0x38, 4096)]

theorem witness_CopyMovesBytesAndNothingElse :
    (run1 full fCopy).started 32 0 0x10 fCopy ∧ (run1 full fCopy).copyCode fCopy.desc = 0 ∧ dField fCopy.desc 0x20 8 % 4096 = 0 ∧
      dField fCopy.desc 0x28 8 % 4096 = 0 ∧ dField fCopy.desc 0x30 8 % 4096 = 0 ∧
      dField fCopy.desc 0x20 8 + dField fCopy.desc 0x30 8 ≤ dField fCopy.desc 0x28 8 := by
  unfold State.started State.isUp; repeat' apply And.intro
  all_goals decide +kernel

end Sys2Proof.Tests
end

