-- ==== Sys2Proof/Tests/Serving.lean ====
section
/-!
SUPPORT. States that meet the hypotheses of the statements about contexts, plans and requests, at the edges of their ranges.
-/

set_option Elab.async false

namespace Sys2Proof.Tests

open Sys2Proof.Machine

/-- A KV record of one group with as many speculative tokens as there may be. -/
def kvBytes : Bytes :=
  block 80 [(0, 1), (2, 255), (4, 512), (0x18, 1), (66, 1), (67, 1), (68, 128), (70, 144), (72, 455)]
def fCtx : Flight := fl 0x08 [(0x20, mem0), (0x28, 80)]
def sCtx : State := withMem (run1 full fCtx) [(mem0, kvBytes)]
def fEnd : Flight := fl 0x09 [(0x20, hCtx)]
def sEnd : State := running (run1 full fEnd) run0
/-- The same with a load in progress that validated the handle. -/
def sLoads : State := { run1 full fEnd with que := { full.que with flights := [fEnd, { fl 0x0F [(0x20, hCtx)] .waiting with ix := 1 }] } }

theorem witness_ContextsComeAndGo :
    (let r := sCtx.unitRead mem0 64
     let r2 := r.2.unitRead mem0 80
     sCtx.started 32 0 0x08 fCtx ∧ dField fCtx.desc 0x20 8 = mem0 ∧ dField fCtx.desc 0x28 8 = 80 ∧ sCtx.devRange mem0 64 = true ∧
      Flag.isPoison r.1.flags = false ∧ fieldB r.1.data 0 2 = 1 ∧ fieldB r.1.data 2 2 = 255 ∧ sCtx.devRange mem0 80 = true ∧
      Flag.isPoison r2.1.flags = false ∧ r2.2.kvCheck r2.1.data (kvRecOf r2.1.data) = (0, 0) ∧ sCtx.hasFreeSlot .ctx = true) ∧
    ((run1 full fEnd).started 32 0 0x09 fEnd ∧ (run1 full fEnd).checkHandle 0 .ctx (dHandle fEnd.desc) = 0 ∧
      (run1 full fEnd).ctx (hIdx (dHandle fEnd.desc)) = some ctx0 ∧ ctx0.run = none ∧
      (run1 full fEnd).ctxLoading (hIdx (dHandle fEnd.desc)) = false) ∧
    (sLoads.started 32 0 0x09 fEnd ∧ sLoads.checkHandle 0 .ctx (dHandle fEnd.desc) = 0 ∧
      sLoads.ctx (hIdx (dHandle fEnd.desc)) = some ctx0 ∧ sLoads.ctxLoading (hIdx (dHandle fEnd.desc)) = true) ∧
    (sEnd.started 32 0 0x09 fEnd ∧ sEnd.checkHandle 0 .ctx (dHandle fEnd.desc) = 0 ∧
      (sEnd.live (hIdx (dHandle fEnd.desc))).map (fun l => (l.r.destroy, l.r.gate)) = some (none, none)) := by
  unfold State.started State.isUp; repeat' apply And.intro
  all_goals decide +kernel

def fBent (p : FPhase) : Flight := fl 0x0A [(0x20, hCtx), (0x24, 3), (0x25, 127)] p

/-- The last bent of the last die. -/
theorem witness_BentsPassToContexts :
    ((run1 full (fBent .started)).started 32 0 0x0A (fBent .started) ∧
      (run1 full (fBent .started)).checkHandle 0 .ctx (dHandle (fBent .started).desc) = 0 ∧
      dField (fBent .started).desc 0x24 1 = 3 ∧ full.dieOk 3 = true ∧ dField (fBent .started).desc 0x25 1 = 127 ∧
      full.bentIsKnot 3 127 = false) ∧
    ((run1 full (fBent .waiting)).isUp ∧ (run1 full (fBent .waiting)).flight 32 0 = some (fBent .waiting) ∧
      (fBent .waiting).phase = .waiting ∧ dOpcode (fBent .waiting).desc = 0x0A ∧
      (run1 full (fBent .waiting)).checkHandle 0 .ctx (dHandle (fBent .waiting).desc) = 0 ∧
      (run1 full (fBent .waiting)).bentUsed 3 127 = false ∧ (run1 full (fBent .waiting)).awake 3 = true) := by
  unfold State.started State.isUp; repeat' apply And.intro
  all_goals decide +kernel

/-- The smallest image, with the largest role. -/
def fLoad : Flight := fl 0x0B [(0x20, hCtx), (0x24, 2), (0x28, mem0), (0x30, 3440), (0x38, mem0 + 0x10000)]
def sLoad : State := withMem (run1 full fLoad) [(mem0 + 8, leBytes 2 3440)]
def fUnload : Flight := fl 0x0C [(0x20, hPlan)]

theorem witness_PlansLoadAndUnload :
    (let r1 := sLoad.unitRead mem0 128
     let r2 := r1.2.unitRead (mem0 + 0x10000) 0
     let r3 := r2.2.unitRead mem0 3440
     sLoad.started 32 0 0x0B fLoad ∧ sLoad.checkHandle 0 .ctx (dHandle fLoad.desc) = 0 ∧ sLoad.ctx (hIdx (dHandle fLoad.desc)) = some ctx0 ∧
      dField fLoad.desc 0x28 8 = mem0 ∧ sLoad.devRange mem0 128 = true ∧ fieldB r1.1.data 0x08 8 = 3440 ∧ fieldB r1.1.data 0x2C 1 = 0 ∧
      fieldB r1.1.data 0x2D 1 = 0 ∧ dField fLoad.desc 0x30 8 = 3440 ∧ sLoad.devRange mem0 3440 = true ∧
      sLoad.devRange (mem0 + 0x10000) 0 = true ∧ dField fLoad.desc 0x24 1 = 2 ∧ Flag.isPoison r1.1.flags = false ∧
      Flag.isPoison r2.1.flags = false ∧ Flag.isPoison r3.1.flags = false ∧ sLoad.bindCode 0 (syncBinds r2.1.data 0) = 0) ∧
    ((run1 full fUnload).started 32 0 0x0C fUnload ∧ (run1 full fUnload).checkHandle 0 .plan (dHandle fUnload.desc) = 0 ∧
      (run1 full fUnload).plan (hIdx (dHandle fUnload.desc)) = some (plan0 []) ∧
      (run1 full fUnload).runsPlan 0 (hIdx (dHandle fUnload.desc)) = false ∧
      (running (run1 full fUnload) run0).runsPlan 0 (hIdx (dHandle fUnload.desc)) = true) := by
  unfold State.started State.isUp; repeat' apply And.intro
  all_goals decide +kernel

def fRun : Flight := fl 0x0D [(0x20, hPlan)]
def fStop : Flight := fl 0x0E [(0x20, hCtx)]

theorem witness_PlansStartAndStop :
    ((run1 full fRun).started 32 0 0x0D fRun ∧ (run1 full fRun).tripLatched = false ∧
      (run1 full fRun).checkHandle 0 .plan (dHandle fRun.desc) = 0 ∧ (run1 full fRun).plan (hIdx (dHandle fRun.desc)) = some (plan0 []) ∧
      (run1 full fRun).ctx (plan0 []).ctx = some ctx0 ∧ ctx0.run = none) ∧
    ((running (run1 full fStop) run0).started 32 0 0x0E fStop ∧
      (running (run1 full fStop) run0).checkHandle 0 .ctx (dHandle fStop.desc) = 0 ∧
      (running (run1 full fStop) run0).ctx (hIdx (dHandle fStop.desc)) = some { ctx0 with run := some run0 }) := by
  unfold State.started State.isUp; repeat' apply And.intro
  all_goals decide +kernel

/-- As many residual entries as a list may have. -/
def fWload : Flight := fl 0x0F [(0x20, hCtx), (0x26, 3), (0x28, 0xFFFF), (0x2C, 2048), (0x30, mem0), (0x38, 8192)]

theorem witness_WeightLoadsBegin :
    (run1 full fWload).started 32 0 0x0F fWload ∧ ((run1 full fWload).weightLoadCode 0 fWload.desc).1 = 0 ∧
      (run1 full fWload).awake (dField fWload.desc 0x24 1) = true ∧ (run1 full fWload).arr 0 0 3 = Arr.reset ∧
      Arr.reset.loading = none ∧ Arr.reset.draining = false ∧ Arr.reset.waiting = [] ∧ dField fWload.desc 0x2C 4 = 2048 := by
  unfold State.started State.isUp; repeat' apply And.intro
  all_goals decide +kernel

/-- An admit block that asks for the generation by its handle, with one token of prompt in the smallest buffers. -/
def admitBlk : Bytes :=
  block 64 [(0x00, mem0 + 0x10000), (0x08, 1), (0x0C, 4), (0x10, mem0 + 0x20000), (0x18, 128), (0x1C, hGen0), (0x34, 1)]
def fAdmit : Flight := fl 0x20 [(0x20, hCtx), (0x24, mkHandle .que 1 33), (0x28, mem0), (0x30, 64)]
def sAdmit : State := withMem (run1 full fAdmit) [(mem0, admitBlk)]

theorem witness_RequestsAreAdmitted :
    (let r := sAdmit.unitRead (dField fAdmit.desc 0x28 8) 64
     let a := Admit.mk r.1.data
     sAdmit.started 32 0 0x20 fAdmit ∧ sAdmit.checkHandle 0 .ctx (dHandle fAdmit.desc) = 0 ∧
      sAdmit.checkHandle 0 .que (dField fAdmit.desc 0x24 4) = 0 ∧ 64 ≤ dField fAdmit.desc 0x30 8 ∧
      sAdmit.devRange (dField fAdmit.desc 0x28 8) 64 = true ∧ sAdmit.ctx (hIdx (dHandle fAdmit.desc)) = some ctx0 ∧
      sAdmit.queue (hIdx (dField fAdmit.desc 0x24 4)) = some comq ∧ Flag.isPoison r.1.flags = false ∧ sAdmit.admitLimits ctx0 a = 0 ∧
      a.f 0x08 4 ≠ 0 ∧ a.f 0x34 4 ≠ 0 ∧ sAdmit.admitCode 0 0 ctx0 (dField fAdmit.desc 0x24 4) a = 0) := by
  unfold State.started State.isUp; repeat' apply And.intro
  all_goals decide +kernel

/-- The flight of a request opcode on request 0. -/
def fReq (op : Nat) (fs : List (Nat × Nat)) : Flight := fl op ((0x20, hReq) :: fs)
/-- `full` with request 0 in a state. -/
def inState (st : Nat) : State := { full with req := { full.req with entries := [(0, some { req0 with state := st })] } }

theorem witness_RequestsAreCancelledAndPaused :
    (∀ f, f ∈ [fReq 0x21 [], fReq 0x22 []] → (run1 full f).checkHandle 0 .req (dHandle f.desc) = 0 ∧
      (run1 full f).reqEnt (hIdx (dHandle f.desc)) = some req0) ∧
    (run1 full (fReq 0x21 [])).started 32 0 0x21 (fReq 0x21 []) ∧ (run1 full (fReq 0x22 [])).started 32 0 0x22 (fReq 0x22 []) ∧
    ({ req0 with state := Rq.completed } : ReqEnt).live = false ∧ (req0.live = true ∧ full.running 0 = false) ∧
    (running full run0).running 0 = true ∧ req0.working = true := by
  unfold State.started State.isUp; repeat' apply And.intro
  all_goals decide +kernel

/-- Every field set; and the drafts that the longest buffer of the last draft needs. -/
theorem witness_RequestsAreResumedSetAndDrafted :
    ((∀ f, f ∈ [fReq 0x23 [], fReq 0x24 [(0x24, 15)], fReq 0x25 [(0x24, 255), (0x28, mem0), (0x30, 1020), (0x38, 4)]] →
      (run1 full f).checkHandle 0 .req (dHandle f.desc) = 0 ∧ (run1 full f).reqEnt (hIdx (dHandle f.desc)) = some req0) ∧
      (inState Rq.spilled).reqEnt 0 = some { req0 with state := Rq.spilled }) ∧
    (run1 full (fReq 0x23 [])).started 32 0 0x23 (fReq 0x23 []) ∧
    (run1 full (fReq 0x24 [(0x24, 15)])).started 32 0 0x24 (fReq 0x24 [(0x24, 15)]) ∧
    (let f := fReq 0x25 [(0x24, 255), (0x28, mem0), (0x30, 1020), (0x38, 4)]
     (run1 full f).started 32 0 0x25 f ∧ dField f.desc 0x24 1 = 255 ∧ 255 * 4 ≤ dField f.desc 0x30 8 ∧
      (run1 full f).devRange (dField f.desc 0x28 8) (255 * 4) = true ∧ (run1 full f).rostered 0 req0 = false) := by
  unfold State.started State.isUp; repeat' apply And.intro
  all_goals decide +kernel

/-- Two entries, the last one the last of the cut list. -/
def fQuery : Flight := fl 0x27 [(0x20, 65534), (0x24, 2), (0x28, mem0), (0x30, 256)]

theorem witness_RequestsAreReleasedAndQueried :
    ((run1 full (fReq 0x26 [])).started 32 0 0x26 (fReq 0x26 []) ∧ (run1 full (fReq 0x26 [])).checkHandle 0 .req (dHandle (fReq 0x26 []).desc) = 0 ∧
      (run1 full (fReq 0x26 [])).reqEnt 0 = some req0 ∧ req0.live = true ∧ (inState Rq.faulted).reqEnt 0 = some { req0 with state := Rq.faulted } ∧
      ({ req0 with state := Rq.faulted } : ReqEnt).live = false) ∧
    ((run1 full fQuery).started 32 0 0x27 fQuery ∧ dField fQuery.desc 0x20 4 + dField fQuery.desc 0x24 4 = 65536 ∧
      dField fQuery.desc 0x24 4 ≠ 0 ∧ dField fQuery.desc 0x24 4 * 128 ≤ dField fQuery.desc 0x30 8 ∧
      (run1 full fQuery).devRange (dField fQuery.desc 0x28 8) 256 = true) := by
  unfold State.started State.isUp; repeat' apply And.intro
  all_goals decide +kernel

def sPaused : State :=
  { full with req := { full.req with entries := [(0, some { req0 with state := Rq.paused, expireAt := 9 })] } }

/-- One tick after the time a paused request keeps. -/
theorem witness_RequestsExpireAndAreRead :
    sPaused.isUp ∧ sPaused.reqEnt 0 = some { req0 with state := Rq.paused, expireAt := 9 } ∧ 9 ≠ 0 ∧ 9 < 10 := by
  unfold State.isUp; repeat' apply And.intro
  all_goals decide +kernel

end Sys2Proof.Tests
end

