-- ==== Sys2Proof/Tests/Slice0.lean ====
section
/-!
SUPPORT. Ill-formed commands that every check of well-formedness refuses, and the spec's own worked examples on the model's
operations.
-/

set_option Elab.async false

namespace Sys2Proof.Tests

open Sys2Proof.Machine

/-! ### Well-formedness -/

def badPkts : List Pkt :=
  let p : Pkt := ⟨0, 0, 0, 0, false, 0, 0, 0, 0, 0, 0, 0, 0, 0, 0, [], [], true, 0, []⟩
  [{ p with vc := 8 }, { p with grantVc := 8 }, { p with kind := 8 }, { p with dst := 65536 }, { p with src := 65536 },
   { p with seq := 2 ^ 32 }, { p with ack := 2 ^ 32 }, { p with grant := 2 ^ 32 }]

/-- One number out of its range at a time. -/
def illFormed : List Instr :=
  [.nop 32768 0, .nop 0 (2 ^ 32), .syncWait 32768 ⟨0, .clean⟩, .syncWait 0 ⟨2 ^ 64, .clean⟩, .descriptorConsume 32768 0 .clean,
   .descriptorComplete 0 (2 ^ 32) 0, .syncWaitDeadline 0 (2 ^ 64), .errLogClear ⟨.fab, 4, 0, 0⟩, .errLogClear ⟨.bent, 0, 128, 0⟩,
   .snapshotCopy ⟨.arr, 0, 0, 4⟩, .pageIrqStatWrite ⟨.fab, 4, 0, 0⟩ 0, .msixUnmask 4 0, .msixUnmask 0 2048,
   .ledgerHostWrite 4 0 0 0, .ledgerHostWrite 0 128 0 0, .arrRetire 0 0 4, .recal 0 128, .kvpCensus 4, .portCensus 32,
   .shareWrite 4 0 0, .adminQueueEnable 65536, .memInject 0 4, .secUpdate 4, .monTemp (some 4), .monLink (some 32),
   .inputWarn 0 (2 ^ 64), .lightLoss 16 0, .laneLockLoss 32 0, .laneLockLoss 0 8, .hostLinkModuleLoss 0 4, .bridgeModuleLoss 0 6,
   .fabricStall 0 0 6 0, .segmentQuantise 0 0 4 0 0 false none, .addIn 0 128 0 .clean .clean, .vecAdd 0 128 0 .clean,
   .windowOpen 0 16 0, .gradFoldComplete 0 16 0, .gradFoldComplete 0 0 (2 ^ 24), .weightFeedLoad 1024 0 0 none,
   .ringPortRead 0 0 32 0 true false, .ringPortWrite 0 0 32 0 false,
   .kvEntryWrite 0 65536 0 0 ⟨0, 0⟩, .kvEntryWrite 0 0 1024 0 ⟨0, 0⟩, .kvEntryWrite 0 0 0 0 ⟨32, 0⟩, .gateRelease 1024 [] ⟨0, .clean⟩, .gateRelease 0 [] ⟨2 ^ 64, .clean⟩, .liveWindowClose 0 0 0 1088,
   .spillComplete 0 (2 ^ 24) true 0, .requestExpiry 65536 0, .shardArrival 4096 0 [] 0, .patrolScrubRead 8 true,
   .packetSend 8192 0, .planeLoadComplete 0 0 ⟨4, .int4⟩, .snapshotMarker ⟨⟨.fab, 4, 0, 0⟩, []⟩] ++ badPkts.map (fun p => .ahnazWrite 0 p 0)

theorem test_ill_formed_refused : illFormed.all (fun i => !i.wf) = true := by decide +kernel

/-- The largest numbers of the same ranges. -/
def wellFormed : List Instr :=
  [.nop 32767 (2 ^ 32 - 1), .msixUnmask 3 2047, .arrRetire 3 127 3, .laneLockLoss 31 7, .fabricStall 3 127 5 (2 ^ 64 - 1),
   .liveWindowClose 3 127 3 1087, .packetSend 8191 (2 ^ 64 - 1), .ringPortWrite 1023 3 31 0 true]

theorem test_well_formed_taken : wellFormed.all (fun i => i.wf) = true := by decide +kernel

/-- No row of the table gives bits. -/
theorem test_no_word_spells_a_command : decodeTableWord 64 0 = none ∧ State.reset.withFetchWord 64 0 = State.reset := ⟨rfl, rfl⟩

/-! ### The spec's worked examples -/

/-- Chapter 2: the SHIM page of array A2 of bent (1, 5, 9) and its PAGE_ID. -/
theorem test_shim_page_address :
    targetOf 0x1011597000 = .reg ⟨.shim, 1, 0x59, 2⟩ 0 ∧ Page.id ⟨.shim, 1, 0x59, 2⟩ = 0x00065901 := by decide +kernel

/-- Chapter 2: handle 0x302A_1F40 and the generation that follows. -/
theorem test_handle_fields :
    mkHandle .sync 42 8000 = 0x302A1F40 ∧ hGen 0x302A1F40 = 42 ∧ hIdx 0x302A1F40 = 8000 ∧ mkHandle .sync (nextGen 42) 8000 = 0x302B1F40 ∧
      nextGen 0xFFF = 1 := by decide +kernel

/-- Chapter 3: the residuals 4, -5, 2 and 5 lie within INT4, so the second pass has exponent 0. -/
theorem test_second_pass_exponent :
    secondExp .int4 [4, -5, 2, 5] 20 0 = 0 ∧ secondAt .int4 0 [4, -5, 2, 5] = [4, -5, 2, 5] := by decide +kernel

/-- Chapter 4: a group sum of -100 splits as 16 · (-6) + (-4), and the corrected term is rounded once, after the offset. -/
theorem test_check_slices_and_correction :
    (highSum (-100), lowSum (-100)) = (-6, -4) ∧ corr16 1 0 (packW [(16, 0x0400), (0, 1)]) = 0 := by decide +kernel

/-- Chapter 6: 16,777,216 + 1.0 - 16,777,216 is 0, in the other order 1.0. -/
theorem test_addition_order :
    (fAdd (fAdd 0x4B800000 0x3F800000).bits 0xCB800000).bits = 0 ∧
      (fAdd (fAdd 0x4B800000 0xCB800000).bits 0x3F800000).bits = 0x3F800000 := by decide +kernel

def kvExample : KvGroup := ⟨true, 0, 1, 8, 128, 1152, 0, 0⟩

/-- Chapter 7: a window of 4,096. -/
theorem test_kv_ring_of_4096 :
    kvExample.tokens = 56 ∧ kvExample.nRing 4096 = 75 ∧ kvExample.cap 4096 = 4200 ∧ kvExample.lo 4096 10000 = 5905 ∧
      kvExample.entryOf 4096 105 = 30 ∧ kvExample.entryOf 4096 178 = 28 := by decide +kernel

/-- Chapter 9: one live window, its sums in 1/512 of a code and of its square. -/
def window301 (see : Int) : CalWin :=
  ⟨65536, 0, 5, packW [(16, 0x8000), (0, 0x30)], 67108864, 27556510171136, 4026532, 15118284882, see, 0⟩

theorem test_live_window : estimate (window301 1690310149) = ⟨136, 20, packW [(16, 0x7FF3), (0, 0x006D)], false⟩ := by decide +kernel

/-- Chapter 9: with the larger residual variance the noise is above the limit of 25. -/
theorem test_live_window_over_limit : 25 < (estimate (window301 1701305265)).noise := by decide +kernel

/-- Chapter 14: byte 63 changed by 0x11. -/
theorem test_memory_code :
    syndOf 4 0x11 = 0x81D00D11 ∧ classify 0x81D00D11 = .fix 4 0x11 ∧ classify poisonSynd = .poison ∧ classify 0x00000001 = .bad := by
  decide +kernel

def response : Pkt :=
  ⟨0, 3, 2, 0, true, 0, 0, 0, 0, 0, 0, 0, 0, 8192, 0, List.replicate 8192 0, [], true, 0, []⟩

/-- Chapter 15: a response of 8,192 bytes takes 33 cells. -/
theorem test_response_cells : pktCells response = 33 := by decide +kernel

/-- Chapter 16: with 5,000 µs allowed, F2 may take W3 and F0 may take W2. -/
theorem test_wake_states_allowed : allowedState 2 5000 = 3 ∧ allowedState 0 5000 = 2 := by decide +kernel

/-- Chapter 18: the slot a snapshot names. -/
theorem test_named_slot : ({ up with fab := { up.fab with base := 7340100 } } : State).namedSlot = 7344256 := by decide +kernel

/-- An idle package stays as it is. -/
theorem test_idle : step up = .next up := by rfl

end Sys2Proof.Tests
end

section
/-!
PROOFS. Host accesses to registers (chapter 2): where words, message entries and pending bits are kept, what a read, a write, an
error, an SRAM read and an unmasking leave, and the outcome of an access of a package that is up.
-/

set_option Elab.async false

namespace Sys2Proof.Machine

/-! ### Where register words, message entries and pending bits are kept -/

/-- The pages that have a unit behind them lie outside the message table and the pending-bit array of a window. -/
theorem pageIndex_of_present {s : State} {p : Page} (h : s.pagePresent p = true) :
    p.index < 0x50 ∨ (0x1000 ≤ p.index ∧ p.index < 0x1800) := by
  obtain ⟨b, d, u, q⟩ := p
  cases b <;> simp [State.pagePresent] at h <;> simp only [Page.index] <;> omega

theorem pageKey_ne_pba {s : State} {p : Page} (h : s.pagePresent p = true) (o d : Nat) {e : Nat} (ho : o / 4 < 0x400)
    (he : e < 2048) : p.key o ≠ pbaKey d e := by
  have := pageIndex_of_present h
  simp only [Page.key, pbaKey, regKey]
  omega

theorem msixKey_ne_pba {d e e' w : Nat} (hw : w < 4) (he : e < 2048) (he' : e' < 2048) : msixKey d e w ≠ pbaKey d e' := by
  simp only [msixKey, pbaKey, regKey]
  omega

theorem msixKey_ne_word {d e w w' : Nat} (h : w ≠ w') : msixKey d e w ≠ msixKey d e w' := by
  simp only [msixKey, regKey]
  omega

theorem key_notMem_irqWords {s s' : State} {p q : Page} (h : s'.pagePresent p = true) {o : Nat} (ho : o / 4 < 0x400)
    (hi : o / 4 ≠ Reg.PAGE_IRQ_STAT / 4) : p.key o ∉ irqWords s q := by
  simp only [irqWords, List.mem_cons, List.not_mem_nil, or_false, not_or]
  exact ⟨key_ne hi ho (by decide), pageKey_ne_pba h _ _ ho (bits_lt _ 26 16)⟩

/-! ### Fields of register words -/

theorem fieldW_withFieldW_low_byte (w : W32) (v : Nat) : fieldW (withFieldW w 7 0 v) 7 0 = v % 256 := by
  simp only [fieldW, withFieldW, bits, BitVec.toNat_ofNat, Nat.shiftRight_zero]
  omega

theorem fieldW_low_byte_withFieldW_high (w : W32) (v : Nat) : fieldW (withFieldW w 31 16 v) 7 0 = fieldW w 7 0 := by
  simp only [fieldW, withFieldW, bits, BitVec.toNat_ofNat, Nat.shiftRight_eq_div_pow]
  omega

theorem bitAt_withFieldW_zero (w : W32) (k : Nat) : bitAt (withFieldW w k k 0).toNat k = false := by
  have hb : (w.toNat >>> k) % 2 * 2 ^ k ≤ w.toNat := by
    rw [Nat.shiftRight_eq_div_pow]
    exact Nat.le_trans (Nat.mul_le_mul_right _ (Nat.mod_le _ _)) (Nat.div_mul_le_self _ _)
  have hlt : w.toNat - (w.toNat >>> k) % 2 * 2 ^ k < 2 ^ 32 := Nat.lt_of_le_of_lt (Nat.sub_le _ _) w.isLt
  have hq : (w.toNat - (w.toNat >>> k) % 2 * 2 ^ k) / 2 ^ k = w.toNat / 2 ^ k - w.toNat / 2 ^ k % 2 := by
    rw [Nat.mul_comm, Nat.sub_mul_div_of_le _ _ _ (by rwa [Nat.mul_comm] at hb), Nat.shiftRight_eq_div_pow]
  have e : (withFieldW w k k 0).toNat = w.toNat - (w.toNat >>> k) % 2 * 2 ^ k := by
    simpa [withFieldW, bits] using hlt
  simp only [bitAt, e, Nat.shiftRight_eq_div_pow (_ - _), hq, decide_eq_false_iff_not]
  omega

/-! ### Reads and writes of one word -/

/-- What a write makes of a stored word by the access types of Table 00-4. -/
def wordMerged (d : WordDef) (old x : W32) : W32 :=
  (old &&& ~~~(BitVec.ofNat 32 d.rw ||| BitVec.ofNat 32 d.w1c)) ||| (x &&& BitVec.ofNat 32 d.rw) |||
    (old &&& BitVec.ofNat 32 d.w1c &&& ~~~x)

theorem State.plainWrite_of_word {p : Page} {off : Nat} {d : WordDef} (h : regWord p.blk off = some d) (s : State) (v : Nat) :
    s.plainWrite p off v = s.wr p off (wordMerged d (s.rd p off) (loW v)) := by
  simp only [State.plainWrite, h]
  rfl

theorem State.plainWrite_kept (s : State) (p : Page) (off v : Nat) : wordsKept s (s.plainWrite p off v) [p.key off] := by
  unfold State.plainWrite
  split
  · exact wordsKept_refl s _
  · exact s.wr_kept p off _

theorem State.readEffect_of_undeclared {p : Page} {off : Nat} (h : regWord p.blk off = none) (s : State) :
    s.readEffect p off = s := by
  simp only [State.readEffect, h]

/-- A read clears the read-to-clear bits of its word. -/
theorem State.rd_readEffect {p : Page} {off : Nat} {d : WordDef} (h : regWord p.blk off = some d) (s : State) :
    (s.readEffect p off).rd p off = s.rd p off &&& ~~~(BitVec.ofNat 32 d.rc) := by
  simp only [State.readEffect, h]
  split
  · next hz =>
    rw [hz]
    exact (BitVec.and_allOnes ..).symm
  · exact s.rd_wr_self p off _

theorem State.readEffect_kept (s : State) (p : Page) (off : Nat) : wordsKept s (s.readEffect p off) [p.key off] := by
  unfold State.readEffect
  split
  · exact wordsKept_refl s _
  · split
    · exact wordsKept_refl s _
    · exact s.wr_kept p off _

theorem State.readEffect_frame (s : State) (p : Page) (off : Nat) :
    s.readEffect p off = { s with regs := (s.readEffect p off).regs } := by
  unfold State.readEffect
  split
  · rfl
  · split <;> rfl

/-- A reserved offset of a page reads as zero (R14). -/
theorem State.word_of_undeclared {p : Page} {off : Nat} (h : offDeclared p.blk off = false) (s : State) :
    s.word p off = 0 := by
  simp only [offDeclared, Bool.or_eq_false_iff] at h
  obtain ⟨hw, hs⟩ := h
  have hsh : shadowOf p.blk off = none := by
    rw [shadowOf, Bool.and_right_comm, hs]
    rfl
  simp [State.word, hw, hsh]

/-! ### The error latch (R52) -/

theorem State.rd_clearErr (s : State) (p : Page) {o : Nat}
    (h : o = Reg.PAGE_ERR_CODE ∨ o = Reg.PAGE_ERR_INFO ∨ o = Reg.PAGE_ERR_ADDR ∨ o = Reg.PAGE_ERR_ADDR + 4) :
    (s.clearErr p).rd p o = 0 := by
  have ne : ∀ {o o' : Nat}, o / 4 ≠ o' / 4 → o / 4 < 0x400 → o' / 4 < 0x400 → p.key o ≠ p.key o' := key_ne
  unfold State.clearErr State.wr64
  rcases h with rfl | rfl | rfl | rfl
  · rw [State.rd_wr_other _ _ (ne (by decide) (by decide) (by decide)),
      State.rd_wr_other _ _ (ne (by decide) (by decide) (by decide)),
      State.rd_wr_other _ _ (ne (by decide) (by decide) (by decide)), State.rd_wr_self]
  · rw [State.rd_wr_other _ _ (ne (by decide) (by decide) (by decide)),
      State.rd_wr_other _ _ (ne (by decide) (by decide) (by decide)), State.rd_wr_self]
  · rw [State.rd_wr_other _ _ (ne (by decide) (by decide) (by decide)), State.rd_wr_self]
    rfl
  · exact State.rd_wr_self _ _ _ _

theorem State.clearErr_kept (s : State) (p : Page) : wordsKept s (s.clearErr p)
    [p.key Reg.PAGE_ERR_CODE, p.key Reg.PAGE_ERR_INFO, p.key Reg.PAGE_ERR_ADDR, p.key (Reg.PAGE_ERR_ADDR + 4)] :=
  wordsKept_trans (wordsKept_trans (wordsKept_mono (s.wr_kept _ _ _) (by simp)) (wordsKept_mono (State.wr_kept _ _ _ _) (by simp)))
    (wordsKept_mono (State.wr64_kept _ _ _ _) (by simp))

theorem State.errValid_of_kept {s t : State} {ws : List Nat} (h : wordsKept s t ws) {p : Page}
    (n : p.key Reg.PAGE_ERR_CODE ∉ ws) : t.errValid p = s.errValid p := by
  simp only [State.errValid, State.fld_of_kept h n]

theorem State.errValid_raise {s s' : State} {p : Page} (h : s'.pagePresent p = true) (q : Page) (b : Nat) :
    (s.raise q b).errValid p = s.errValid p :=
  State.errValid_of_kept (s.raise_kept q b) (key_notMem_irqWords h (by decide) (by decide))

theorem State.errValid_logPush {s s' : State} {p : Page} (h : s'.pagePresent p = true) (r : LogRec) :
    (s.logPush r).errValid p = s.errValid p := by
  refine State.errValid_of_kept (s.logPush_kept r) ?_
  simp only [List.mem_cons, not_or]
  exact ⟨key_ne (by decide) (by decide) (by decide), key_notMem_irqWords h (by decide) (by decide)⟩

theorem State.errValid_wr (s : State) (p : Page) (v : W32) :
    (s.wr p Reg.PAGE_ERR_CODE v).errValid p = (fieldW v 7 0 != 0) := by
  simp only [State.errValid, State.fld, State.rd_wr_self]

theorem State.errValid_wr_other (s : State) (p : Page) {o : Nat} (v : W32) (h : Reg.PAGE_ERR_CODE / 4 ≠ o / 4)
    (ho : o / 4 < 0x400) : (s.wr p o v).errValid p = s.errValid p := by
  simp only [State.errValid, State.fld_wr_other _ _ _ _ (key_ne h (by decide) ho)]

/-- An error that a page detects leaves a valid latch: its own, or the earlier one. -/
theorem State.errValid_latchErr {s s' : State} {p : Page} (h : s'.pagePresent p = true) {c : Nat} (hc : c % 256 ≠ 0)
    (x : Option Nat) (d a : Nat) : (s.latchErr p c x d a).errValid p = true := by
  unfold State.latchErr State.latchErrAs State.setFld
  split
  · next hv =>
    rw [State.errValid_raise h, State.errValid_wr, fieldW_low_byte_withFieldW_high]
    exact hv
  · unfold State.logEvent State.wr64
    rw [State.errValid_logPush h, State.errValid_raise h, State.errValid_wr_other _ _ _ (by decide) (by decide),
      State.errValid_wr_other _ _ _ (by decide) (by decide), State.errValid_wr_other _ _ _ (by decide) (by decide),
      State.errValid_wr, fieldW_withFieldW_low_byte]
    simpa using hc

/-! ### Reads of on-die SRAM (R411) -/

/-- An event on a page, after a permanent fault was noted or none was. -/
theorem frame_of_worn {s t : State} {l : List Page} (h : pagesOnly { s with sramWorn := l } t) :
    t = { s with regs := t.regs, out := t.out, log := t.log, free := t.free, sramFixed := t.sramFixed, sramWorn := t.sramWorn } := by
  rw [h]

theorem State.sramSeen_frame (s : State) (p : Page) (x : SramRead) (c : Option Nat) :
    s.sramSeen p x c = { s with regs := (s.sramSeen p x c).regs, out := (s.sramSeen p x c).out, log := (s.sramSeen p x c).log,
                                free := (s.sramSeen p x c).free, sramFixed := (s.sramSeen p x c).sramFixed,
                                sramWorn := (s.sramSeen p x c).sramWorn } := by
  cases x with
  | clean => rfl
  | corrected | again => unfold State.sramSeen; split <;> rfl
  | double | wrong =>
    unfold State.sramSeen
    dsimp only
    split <;> exact frame_of_worn (State.latchErr_frame _ _ _ _ _ _)

/-- Two wrong bits of an SRAM word are latched on the unit's page. -/
theorem State.errValid_sramSeen {s s' : State} {p : Page} (h : s'.pagePresent p = true) {x : SramRead} (hx : sramLost x = true)
    (c : Option Nat) : (s.sramSeen p x c).errValid p = true := by
  cases x with
  | clean | corrected | again => cases hx
  | double | wrong => exact State.errValid_latchErr h (by decide) _ _ _

theorem sramNoted_sramSeen {s s' : State} {p : Page} (h : s'.pagePresent p = true) (x : SramRead) (r : HostResp) :
    sramNoted s ((s.sramSeen p x none).answer r) p [x] :=
  ⟨rfl, rfl, fun hx => State.errValid_sramSeen h (by simpa using hx) none⟩

/-! ### Message entries (R63) -/

theorem State.setPba_kept (s : State) (d e : Nat) (b : Bool) : wordsKept s (s.setPba d e b) [pbaKey d e] :=
  fun _ n c => look_put_other c _ _ _ (fun q => n (by simp [q]))

theorem State.pba_setPba_false (s : State) (d e : Nat) : (s.setPba d e false).pba d e = false := by
  simp only [State.pba, State.setPba, look_put_self]
  exact bitAt_withFieldW_zero _ _

theorem State.sendMsix_of_unmasked {s : State} {d e : Nat} (h : s.msixMasked d e = false) :
    s.sendMsix d e = { s with out := { s.out with msix := s.out.msix ++
      [⟨d, e, (s.msixWord d e 0).toNat + (s.msixWord d e 1).toNat * 2 ^ 32, (s.msixWord d e 2).toNat⟩] } } := by
  simp [State.sendMsix, h]

/-- The state in which the mask bit of an entry is clear. -/
def State.maskCleared (s : State) (d e : Nat) : State :=
  { s with regs := put (msixReset 3) s.regs (msixKey d e 3) (s.msixWord d e 3 &&& ~~~(1 : W32)) }

theorem State.maskCleared_kept (s : State) (d e : Nat) : wordsKept s (s.maskCleared d e) [msixKey d e 3] :=
  fun _ n c => look_put_other c _ _ _ (fun q => n (by simp [q]))

theorem State.msixMasked_maskCleared (s : State) (d e : Nat) : (s.maskCleared d e).msixMasked d e = false := by
  simp [State.msixMasked, State.msixWord, State.maskCleared]

theorem State.msixWord_of_kept {s t : State} {ws : List Nat} (h : wordsKept s t ws) {d e w : Nat} (n : msixKey d e w ∉ ws) :
    t.msixWord d e w = s.msixWord d e w := h _ n _

theorem State.pba_of_kept {s t : State} {ws : List Nat} (h : wordsKept s t ws) {d e : Nat} (n : pbaKey d e ∉ ws) :
    t.pba d e = s.pba d e := by
  simp only [State.pba, h _ n]

theorem State.msixMasked_of_kept {s t : State} {ws : List Nat} (h : wordsKept s t ws) {d e : Nat} (n : msixKey d e 3 ∉ ws) :
    t.msixMasked d e = s.msixMasked d e := by
  simp only [State.msixMasked, State.msixWord_of_kept h n]

theorem State.pba_maskCleared (s : State) {d e : Nat} (he : e < 2048) : (s.maskCleared d e).pba d e = s.pba d e :=
  State.pba_of_kept (s.maskCleared_kept d e) (by simpa using (msixKey_ne_pba (by decide) he he).symm)

/-- An entry that holds no message back is only unmasked. -/
theorem State.unmask_of_idle {s : State} {d e : Nat} (h : (s.msixMasked d e && s.pba d e) = false) :
    s.unmask d e = s.maskCleared d e := by
  simp only [State.unmask, h]
  rfl

/-- An entry that holds a message back is unmasked, its pending bit is cleared, and the message goes out. -/
theorem State.unmask_of_held {s : State} {d e : Nat} (he : e < 2048) (h : (s.msixMasked d e && s.pba d e) = true) :
    s.unmask d e = { (s.maskCleared d e).setPba d e false with out := { s.out with msix := s.out.msix ++
      [⟨d, e, (s.msixWord d e 0).toNat + (s.msixWord d e 1).toNat * 2 ^ 32, (s.msixWord d e 2).toNat⟩] } } := by
  have np : ∀ w, w < 4 → msixKey d e w ∉ [pbaKey d e] := fun w hw => by simpa using msixKey_ne_pba hw he he
  have free : ((s.maskCleared d e).setPba d e false).msixMasked d e = false := by
    rw [State.msixMasked_of_kept (State.setPba_kept _ d e false) (np 3 (by decide)), State.msixMasked_maskCleared]
  have word : ∀ w, w < 3 → ((s.maskCleared d e).setPba d e false).msixWord d e w = s.msixWord d e w := fun w hw => by
    rw [State.msixWord_of_kept (State.setPba_kept _ d e false) (np w (by omega)),
      State.msixWord_of_kept (s.maskCleared_kept d e) (by simpa using msixKey_ne_word (by omega))]
  have run : s.unmask d e = ((s.maskCleared d e).setPba d e false).sendMsix d e := by
    simp only [State.unmask, h]
    rfl
  rw [run, State.sendMsix_of_unmasked free, word 0 (by decide), word 1 (by decide), word 2 (by decide)]
  rfl

/-- Unmasking an entry sends the message that it holds back, and clears its pending bit (R63). -/
theorem State.unmask_spec (s : State) (d : Nat) {e : Nat} (he : e < 2048) :
    let held := s.msixMasked d e && s.pba d e
    let t := s.unmask d e
    t.msixMasked d e = false ∧ t.pba d e = (s.pba d e && !held) ∧
      t.out = { s.out with msix := s.out.msix ++ (if held then
        [⟨d, e, (s.msixWord d e 0).toNat + (s.msixWord d e 1).toNat * 2 ^ 32, (s.msixWord d e 2).toNat⟩] else []) } ∧
      wordsKept s t [msixKey d e 3, pbaKey d e] ∧ t = { s with regs := t.regs, out := t.out } := by
  intro held t
  have np : msixKey d e 3 ∉ [pbaKey d e] := by simpa using msixKey_ne_pba (by decide) he he
  have cleared : wordsKept s (s.maskCleared d e) [msixKey d e 3, pbaKey d e] :=
    wordsKept_mono (s.maskCleared_kept d e) (by simp)
  cases h : held with
  | false =>
    have ht : t = s.maskCleared d e := State.unmask_of_idle h
    rw [ht]
    refine ⟨s.msixMasked_maskCleared d e, ?_, ?_, cleared, rfl⟩
    · rw [State.pba_maskCleared s he, Bool.not_false, Bool.and_true]
    · simp [State.maskCleared]
  | true =>
    have ht := State.unmask_of_held he h
    have gone := State.setPba_kept (s.maskCleared d e) d e false
    refine ⟨?_, ?_, ?_, ?_, ?_⟩ <;> rw [show t = _ from ht]
    · exact (State.msixMasked_of_kept gone np).trans (s.msixMasked_maskCleared d e)
    · rw [Bool.not_true, Bool.and_false]
      exact State.pba_setPba_false _ d e
    · rfl
    · exact wordsKept_trans cleared (wordsKept_mono gone (by simp))
    · rfl

theorem State.sendMsix_only (s : State) (d e : Nat) :
    s.sendMsix d e = { s with regs := (s.sendMsix d e).regs, out := (s.sendMsix d e).out } := by
  unfold State.sendMsix
  split <;> rfl

/-! ### PAGE_IRQ_STAT (R63) -/

/-- Every bit of PAGE_IRQ_STAT that is declared is write-one-to-clear, and none is read-write. -/
theorem regWord_irqStat (b : Block) : regWord b Reg.PAGE_IRQ_STAT = some ⟨0x010, 0, 0xFFFFFFFF, 0, 0, 0⟩ := rfl

theorem State.rd_plainWrite_irqStat (s : State) (p : Page) (v : Nat) :
    (s.plainWrite p Reg.PAGE_IRQ_STAT v).rd p Reg.PAGE_IRQ_STAT = s.rd p Reg.PAGE_IRQ_STAT &&& ~~~(loW v) := by
  rw [State.plainWrite_of_word (regWord_irqStat p.blk), State.rd_wr_self]
  have ones (w : W32) : w &&& 0xFFFFFFFF#32 = w := BitVec.and_allOnes
  simp [wordMerged, ones]

theorem State.fld_ctrl_plainWrite_irqStat (s : State) (p : Page) (v : Nat) :
    (s.plainWrite p Reg.PAGE_IRQ_STAT v).fld p Reg.PAGE_CTRL 26 16 = s.fld p Reg.PAGE_CTRL 26 16 :=
  State.fld_of_kept (s.plainWrite_kept p _ v) (by simpa using key_ne (by decide) (by decide) (by decide)) 26 16

theorem State.ackIrq_frame (s : State) (p : Page) (v : Nat) :
    s.ackIrq p v = { s with regs := (s.ackIrq p v).regs, out := (s.ackIrq p v).out } := by
  have w := State.plainWrite_of_word (regWord_irqStat p.blk) s v
  unfold State.ackIrq
  rw [w]
  dsimp only
  split
  · exact State.sendMsix_only _ _ _
  · rfl

theorem State.ackIrq_kept (s : State) (p : Page) (v : Nat) : wordsKept s (s.ackIrq p v) (irqWords s p) := by
  have w : wordsKept s (s.plainWrite p Reg.PAGE_IRQ_STAT v) (irqWords s p) :=
    wordsKept_mono (s.plainWrite_kept p _ v) (by simp [irqWords])
  unfold State.ackIrq
  dsimp only
  split
  · refine wordsKept_trans w (wordsKept_mono (State.sendMsix_kept _ _ _) ?_)
    simp [irqWords, s.fld_ctrl_plainWrite_irqStat p v]
  · exact w

/-- A write of PAGE_IRQ_STAT clears the bits that it names. -/
theorem State.rd_ackIrq {s : State} {p : Page} (h : s.pagePresent p = true) (v : Nat) :
    (s.ackIrq p v).rd p Reg.PAGE_IRQ_STAT = s.rd p Reg.PAGE_IRQ_STAT &&& ~~~(loW v) := by
  rw [← s.rd_plainWrite_irqStat]
  unfold State.ackIrq
  dsimp only
  split
  · exact State.rd_of_kept (State.sendMsix_kept _ _ _)
      (fun m => pageKey_ne_pba h _ _ (by decide) (bits_lt _ 26 16) (List.mem_singleton.mp m))
  · rfl

/-! ### Host accesses of a package that is up (R41, R42, Table 02-6) -/

theorem exec_rcCounterRead_of_reaches {s : State} {a : Nat} (h : s.hostReaches a) (x : HostLoad) :
    exec (.rcCounterRead a x) s = .next ((s.hostLoad a x.size x.t0 x.sram).2.answer (s.hostLoad a x.size x.t0 x.sram).1) :=
  congrArg Host.Outcome.next (State.onHost_of_reaches h _)

theorem exec_registerWrite_of_reaches {s : State} {a : Nat} (h : s.hostReaches a) (n : Nat) (v : BitVec 64) :
    exec (.registerWrite a n v) s = .next ((s.writeReg a n v.toNat).answer (s.writeResp a n)) :=
  congrArg Host.Outcome.next (State.onHost_of_reaches h _)

theorem exec_errLogClear_of_takes {s : State} {p : Page} (h : s.takesWrites p) :
    exec (.errLogClear p) s = .next (s.clearErr p) :=
  congrArg Host.Outcome.next (State.hostPage_of_takes h _)

theorem exec_pageIrqStatWrite_of_takes {s : State} {p : Page} (h : s.takesWrites p) (v : W32) :
    exec (.pageIrqStatWrite p v) s = .next (s.ackIrq p v.toNat) :=
  congrArg Host.Outcome.next (State.hostPage_of_takes h _)

theorem exec_msixUnmask_of_reaches {s : State} {die e : Nat} (h : s.hostReaches (windowBase + die * windowBytes))
    (hd : s.dieOk die = true) (he : e < 2048) : exec (.msixUnmask die e) s = .next (s.unmask die e) := by
  refine congrArg Host.Outcome.next ((State.onHost_of_reaches h _).trans ?_)
  simp [hd, he]

theorem State.answer_of_regs {s u : State} (h : u = { s with regs := u.regs }) (r : HostResp) :
    u.answer r = { s with regs := u.regs, out := { s.out with host := r } } :=
  congrArg (State.answer · r) h

theorem State.pageAsleep_of_awake {s : State} {p : Page} (h : (s.wakeOf p.die).state = 0) : s.pageAsleep p = false := by
  simp [State.pageAsleep, h]

theorem State.readFirst_of_plain {p : Page} {off : Nat} (h : p.blk ≠ .req ∨ off ≠ Reg.REQ_ENTRY_DATA) (s : State) :
    s.readFirst p off = s := by
  unfold State.readFirst
  rcases h with h | h <;> simp [h]

/-- A 4-byte read of an awake page's word (R12, R14): the word, and the word's read-to-clear bits go. -/
theorem State.readWord_of_awake {s : State} {a : Nat} {p : Page} {off : Nat} (ht : targetOf a = .reg p off)
    (hp : s.pagePresent p = true) (hw : (s.wakeOf p.die).state = 0) (hq : p.blk ≠ .req ∨ off ≠ Reg.REQ_ENTRY_DATA) :
    s.readWord a = (some (s.word p off).toNat, s.readEffect p off) := by
  cases hd : offDeclared p.blk off with
  | false =>
    have hn : regWord p.blk off = none := by simp_all [offDeclared]
    simp [State.readWord, ht, hp, hd, State.word_of_undeclared hd, State.readEffect_of_undeclared hn]
  | true =>
    simp [State.readWord, ht, hp, hd, State.pageAsleep_of_awake hw, State.wakeDemand_of_awake hw,
      State.readFirst_of_plain hq]

theorem State.hostLoad_of_word {s : State} {a : Nat} {p : Page} {off : Nat} (ha : a % 4 = 0) (ht : targetOf a = .reg p off)
    (hp : s.pagePresent p = true) (hw : (s.wakeOf p.die).state = 0) (hq : p.blk ≠ .req ∨ off ≠ Reg.REQ_ENTRY_DATA)
    (hb : p.blk ≠ .bent ∨ off < 0x40) (t0 : Nat) (x : SramRead) :
    s.hostLoad a 4 t0 x = (.data (s.word p off).toNat, s.readEffect p off) := by
  have hn : benchWindow a = none := by
    simp only [benchWindow, ht]
    rcases hb with h | h <;> simp [h]
  simp [State.hostLoad, hn, State.readReg, aligned, ha, State.readWord_of_awake ht hp hw hq]

/-- A read through the window onto T0 (R34, R189): its words, or a load fault where one is uncorrectable. -/
theorem State.hostLoad_of_bench {s : State} {a n : Nat} {p : Page} {off : Nat} (ha : aligned a n = true)
    (ht : targetOf a = .reg p off) (hb : p.blk = .bent) (ho : 0x40 ≤ off) (hp : s.pagePresent p = true)
    (hw : (s.wakeOf p.die).state = 0) (t0 : Nat) (x : SramRead) :
    s.hostLoad a n t0 x =
      (if sramLost x then .loadFault
        else .data (s.benchWord p t0 + (if n = 8 then s.benchWord p (t0 + 4) * 2 ^ 32 else 0)),
        s.sramSeen (ledgPage p.die p.unit) x none) := by
  have hn : benchWindow a = some p := by simp [benchWindow, ht, hb, ho]
  simp only [State.hostLoad, hn, ha, State.readBench, hp, State.pageAsleep_of_awake hw, State.wakeDemand_of_awake hw]
  cases sramLost x <;> rfl

theorem State.pagePresent_ledg {s : State} {p : Page} (hb : p.blk = .bent) (hp : s.pagePresent p = true) :
    s.pagePresent (ledgPage p.die p.unit) = true := by
  simp_all [State.pagePresent, ledgPage, unitPage]

theorem State.ready_of_reaches {s : State} {a : Nat} (h : s.hostReaches a) : s.ready = true := h.1.1

/-- A misaligned write changes nothing, nor does one that Table 02-6 ignores. -/
theorem State.writeReg_of_nothing {s : State} {a n : Nat} (hr : s.ready = true)
    (h : aligned a n = false ∨ (n = 4 ∧ s.writeResp a n = .ignored)) (v : Nat) : s.writeReg a n v = s := by
  rcases h with h | ⟨rfl, h⟩
  · simp [State.writeReg, h]
  · cases ha : aligned a 4 with
    | false => simp [State.writeReg, ha]
    | true =>
      simp only [State.writeReg, State.writeWord, ha]
      cases ht : targetOf a with
      | msix die e w =>
        have hd : s.dieOk die = false := by simpa [State.writeResp, ha, ht] using h
        simp [State.writeMsix, hd]
      | reg p off =>
        cases hd : offDeclared p.blk off with
        | false => simp [hd]
        | true =>
          cases hp : s.pagePresent p with
          | false => simp [State.pageWrite, hp]
          | true =>
            cases hs : s.pageAsleep p <;> simp [State.writeResp, ha, ht, hd, hp, hs, hr] at h
      | pba die w | reserved | mem | hole => simp

theorem writeBlk_of_plain {p : Page} (h : [Block.scrb, .wgt, .att, .grad, .shim, .ledg].contains p.blk = true) (s : State)
    (off v : Nat) : s.writeBlk p off v = s.plainWrite p off v := by
  cases hb : p.blk <;> simp [hb] at h <;> simp only [State.writeBlk, hb]

/-- A 4-byte write of a word of a unit's own page, where the block gives the write no meaning of its own. -/
theorem State.writeReg_of_plain {s : State} {a : Nat} {p : Page} {off : Nat} {d : WordDef} (ha : a % 4 = 0)
    (ht : targetOf a = .reg p off) (hp : s.takesWrites p)
    (hb : [Block.scrb, .wgt, .att, .grad, .shim, .ledg].contains p.blk = true) (ho : 0x40 ≤ off)
    (hd : regWord p.blk off = some d) (h64 : is64 p.blk off = false) (h64' : is64 p.blk (off - 4) = false) (v : Nat) :
    s.writeReg a 4 v = s.wr p off (wordMerged d (s.rd p off) (loW v)) := by
  have hq : p.blk ≠ .que := fun e => by simp [e] at hb
  have hlo : loW (v % 2 ^ 32) = loW v := BitVec.eq_of_toNat_eq (by simp [loW])
  have hwr : s.write32 p off (v % 2 ^ 32) = s.plainWrite p off (v % 2 ^ 32) := by
    simp [State.write32, Nat.not_lt.mpr ho, hq, h64, h64', writeBlk_of_plain hb]
  have run : s.writeReg a 4 v = s.write32 p off (v % 2 ^ 32) := by
    simp [State.writeReg, State.writeWord, aligned, ha, ht, offDeclared, hd, State.pageWrite_of_takes hp]
  rw [run, hwr, State.plainWrite_of_word hd, hlo]

theorem State.writeResp_of_takes {s : State} {a : Nat} {p : Page} {off : Nat} (ha : a % 4 = 0)
    (ht : targetOf a = .reg p off) (hp : s.takesWrites p) (hd : offDeclared p.blk off = true) :
    s.writeResp a 4 = .written := by
  obtain ⟨⟨hr, _⟩, hpres, hw, _⟩ := hp
  simp [State.writeResp, aligned, ha, ht, hd, hpres, hr, State.pageAsleep_of_awake hw]

theorem loW_toNat64 (v : BitVec 64) : loW v.toNat = BitVec.setWidth 32 v := by
  simp [loW, BitVec.ofNat_toNat]

theorem loW_toNat32 (v : W32) : loW v.toNat = v := by
  simp [loW]

/-! ### The obligation -/

/-- Settles O41: each access is one of the equations above, and what it leaves is said by the frames of the words it writes. -/
theorem registersAreReadAndWritten : Obligations.RegistersAreReadAndWritten := by
  unfold Obligations.RegistersAreReadAndWritten
  refine ⟨?_, ?_, ?_, ?_, ?_, ?_, ?_⟩
  · intro s a p off hr ha ht hp hw hq hb t0 x
    refine ⟨_, exec_rcCounterRead_of_reaches hr _, ?_⟩
    rw [State.hostLoad_of_word ha ht hp hw hq hb]
    exact ⟨rfl, fun d hd => State.rd_readEffect hd s, s.readEffect_kept p off, State.answer_of_regs (s.readEffect_frame p off) _⟩
  · intro s a n t0 p off hr ha ht hb ho hp hw w x
    refine ⟨_, exec_rcCounterRead_of_reaches hr _, ?_⟩
    rw [State.hostLoad_of_bench ha ht hb ho hp hw]
    refine ⟨sramNoted_sramSeen (State.pagePresent_ledg hb hp) x _, rfl, ?_, ?_⟩
    · rintro rfl
      rfl
    · exact congrArg (State.answer · _) (s.sramSeen_frame (ledgPage p.die p.unit) x none)
  · intro s a n v hr
    refine ⟨_, exec_registerWrite_of_reaches hr n v, rfl, fun h => ?_⟩
    rw [State.writeReg_of_nothing (State.ready_of_reaches hr) h]
    rfl
  · intro s a v p off d hr ha ht hp hb ho hd h64 h64' x old rw w1c
    refine ⟨_, exec_registerWrite_of_reaches hr 4 v, ?_⟩
    rw [State.writeReg_of_plain ha ht hp hb ho hd h64 h64', loW_toNat64]
    exact ⟨State.writeResp_of_takes ha ht hp (by simp [offDeclared, hd]), s.rd_wr_self p off _, s.wr_kept p off _, rfl⟩
  · intro s p hp
    have code := s.rd_clearErr p (.inl rfl)
    refine ⟨_, exec_errLogClear_of_takes hp, ?_, code, s.rd_clearErr p (.inr (.inl rfl)), ?_, s.clearErr_kept p, rfl⟩
    · rw [State.errValid, State.fld, code]
      rfl
    · rw [State.rd64, s.rd_clearErr p (.inr (.inr (.inl rfl))), s.rd_clearErr p (.inr (.inr (.inr rfl)))]
      rfl
  · intro s p v d hp _
    refine ⟨_, exec_pageIrqStatWrite_of_takes hp v, fun i hi _ => ?_, s.ackIrq_kept p _, s.ackIrq_frame p _⟩
    rw [State.rd_ackIrq hp.2.1, loW_toNat32]
    simp [hi]
  · intro s die e hr hd he
    exact ⟨_, exec_msixUnmask_of_reaches hr hd he, s.unmask_spec die he⟩

end Sys2Proof.Machine
end
